-- ==== Sys2Proof/Word.lean ====
section
/-! DEFINITION. The byte and the 16-bit address word of the 6502 (spec 00_scope.md R5, R6). -/

namespace Sys2Proof

/-- The addressable unit and the width of A, X, Y and S (R5, R50). -/
abbrev Byte := BitVec 8

/-- An address, and the width of PC (R5, R6). -/
abbrev Word := BitVec 16

end Sys2Proof
end

