-- ==== Sys2Proof/Config.lean ====
section
/-! DEFINITION. What a part or a platform fixes (the parameters of spec 00_scope.md R7) and the free values: what the
spec leaves open, as opaque constants about which nothing can be proved. -/

namespace Sys2Proof

/-- `ZP_PTR_CROSS` (R7, D9): what `(n,X)` and `(n),Y` do when the pointer's two bytes straddle the end of page 0. -/
inductive ZpPtrCross where
  | refuse
  | wrap
deriving DecidableEq, Repr

/-- `JMP_IND_CROSS` (R7, D10): what `JMP (nn)` does when the low byte of nn is 0xFF. -/
inductive JmpIndCross where
  | refuse
  | linear
  | pageWrap
deriving DecidableEq, Repr

/-- `DECIMAL_MODE` (R7, D4): how ADC and SBC with D = 1 are given meaning. -/
inductive DecimalMode where
  | bcdValidOnly
  | refuse
deriving DecidableEq, Repr

/-- What stands at an address (R51, D21): the values of the parameter `MEMMAP`. -/
inductive MemKind where
  | ram
  | rom
  | io
  | unpopulated
deriving DecidableEq, Repr

/-- A run of addresses of one kind: a piece of `MEMMAP`. -/
structure Region where
  base : Nat
  size : Nat
  kind : MemKind
deriving DecidableEq, Repr

/-- The parameters of R7. `MEMMAP` is a list of regions: the first that holds an address gives its kind. -/
structure Params where
  /-- `HAS_ROR` (R8, D2) -/
  hasRor : Bool
  /-- `MEMMAP` (R51, D21) -/
  memMap : List Region
  /-- `STACK_IN_PAGE_ZERO` (R66, D11) -/
  stackInPageZero : Bool
  /-- `ZP_PTR_CROSS` (R88, R89, D9) -/
  zpPtrCross : ZpPtrCross
  /-- `JMP_IND_CROSS` (R181, D10) -/
  jmpIndCross : JmpIndCross
  /-- `DECIMAL_MODE` (R122, D4) -/
  decimalMode : DecimalMode
  /-- `SO_PIN_USED` (R28, D19) -/
  soPinUsed : Bool
deriving DecidableEq, Repr

/-- The part a memory read plays in its instruction or entry sequence. No two reads of one step share both this and the
address, so the bytes a device gives them are independent free values (log 11). -/
inductive Access where
  | opcode
  | operandLow
  | operandHigh
  | pointerLow
  | pointerHigh
  | data
  | stack
  | vectorLow
  | vectorHigh
deriving DecidableEq, Repr

/-- The flags and registers that the spec leaves at any value: after a decimal ADC or SBC (R122), under a driven S.O. pin
(D19), after RES (R40). -/
inductive FreeUse where
  | decimalN
  | decimalV
  | decimalZ
  | soPinV
  | resetA
  | resetX
  | resetY
  | resetS
  | resetN
  | resetV
  | resetD
  | resetZ
  | resetC
deriving DecidableEq, Repr

/-- The byte that the platform supplies for a read of an I/O or unpopulated address (R51, U13), a free value: applied to
the boundary counter, the role of the read and its address. -/
opaque Config.deviceByte : Nat → Access → Word → Byte

/-- A byte the spec leaves open, a free value: applied to the boundary counter and what it stands for. -/
opaque Config.freeByte : Nat → FreeUse → Byte

/-- A flag the spec leaves open, a free value: applied to the boundary counter and what it stands for. -/
opaque Config.freeBit : Nat → FreeUse → Bool

end Sys2Proof
end

