-- ==== Sys2Proof/Syntax.lean ====
section
/-! DEFINITION. The instructions of the 6502: one constructor per row of spec/opcode_table.json (spec 30_encoding.md R95),
the 56 mnemonics and the 13 addressing forms (R83). -/

namespace Sys2Proof

/-- The addressing forms that yield an effective address (R87 to R94). -/
inductive MemForm where
  | zp (n : Byte)
  | zpx (n : Byte)
  | zpy (n : Byte)
  | abs (nn : Word)
  | abx (nn : Word)
  | aby (nn : Word)
  | inx (n : Byte)
  | iny (n : Byte)
deriving DecidableEq, Repr

/-- Where an operand byte, the card's "DATA", comes from: the instruction itself (R86) or memory. -/
inductive Source where
  | imm (n : Byte)
  | mem (m : MemForm)
deriving DecidableEq, Repr

/-- The 13 addressing forms of R83: None, Accumulator, the nine forms of a `Source`, Indirect, Relative. -/
inductive Form where
  | imp
  | acc
  | data (src : Source)
  | ind (nn : Word)
  | rel (n : Byte)
deriving DecidableEq, Repr

/-- The bytes an operand of the form takes after the opcode byte (R80: formats F1, F2, F3). -/
def MemForm.operandLength : MemForm → Nat
  | .zp _ => 1
  | .zpx _ => 1
  | .zpy _ => 1
  | .abs _ => 2
  | .abx _ => 2
  | .aby _ => 2
  | .inx _ => 1
  | .iny _ => 1

/-- The length in bytes of an instruction whose operand byte comes from `src` (R80). -/
def Source.length : Source → Nat
  | .imm _ => 2
  | .mem m => 1 + m.operandLength

/-- The length in bytes of an instruction of the form (R80). -/
def Form.length : Form → Nat
  | .imp => 1
  | .acc => 1
  | .data src => src.length
  | .ind _ => 3
  | .rel _ => 2

/-- The 56 mnemonics of R95. -/
inductive Mnemonic where
  | adc | sbc | cmp | cpx | cpy
  | and | eor | ora | bit
  | asl | lsr | rol | ror
  | bcc | bcs | beq | bne | bmi | bpl | bvc | bvs
  | clc | cld | cli | clv | sec | sed | sei
  | dec | dex | dey | inc | inx | iny
  | jmp | jsr | rts
  | lda | ldx | ldy | sta | stx | sty
  | pha | php | pla | plp | tax | tay | tsx | txa | txs | tya
  | brk | rti | nop
deriving DecidableEq, Repr

/-- An instruction: a row of the opcode table of R95 with its operand, `n` or `nn` (R82). The suffix of a constructor is
the row's addressing form. -/
inductive Instr where
  -- 40_arithmetic.md
  | adcImm (n : Byte)
  | adcZp (n : Byte)
  | adcZpx (n : Byte)
  | adcAbs (nn : Word)
  | adcAbx (nn : Word)
  | adcAby (nn : Word)
  | adcInx (n : Byte)
  | adcIny (n : Byte)
  | sbcImm (n : Byte)
  | sbcZp (n : Byte)
  | sbcZpx (n : Byte)
  | sbcAbs (nn : Word)
  | sbcAbx (nn : Word)
  | sbcAby (nn : Word)
  | sbcInx (n : Byte)
  | sbcIny (n : Byte)
  | cmpImm (n : Byte)
  | cmpZp (n : Byte)
  | cmpZpx (n : Byte)
  | cmpAbs (nn : Word)
  | cmpAbx (nn : Word)
  | cmpAby (nn : Word)
  | cmpInx (n : Byte)
  | cmpIny (n : Byte)
  | cpxImm (n : Byte)
  | cpxZp (n : Byte)
  | cpxAbs (nn : Word)
  | cpyImm (n : Byte)
  | cpyZp (n : Byte)
  | cpyAbs (nn : Word)
  -- 41_logic.md
  | andImm (n : Byte)
  | andZp (n : Byte)
  | andZpx (n : Byte)
  | andAbs (nn : Word)
  | andAbx (nn : Word)
  | andAby (nn : Word)
  | andInx (n : Byte)
  | andIny (n : Byte)
  | eorImm (n : Byte)
  | eorZp (n : Byte)
  | eorZpx (n : Byte)
  | eorAbs (nn : Word)
  | eorAbx (nn : Word)
  | eorAby (nn : Word)
  | eorInx (n : Byte)
  | eorIny (n : Byte)
  | oraImm (n : Byte)
  | oraZp (n : Byte)
  | oraZpx (n : Byte)
  | oraAbs (nn : Word)
  | oraAbx (nn : Word)
  | oraAby (nn : Word)
  | oraInx (n : Byte)
  | oraIny (n : Byte)
  | bitZp (n : Byte)
  | bitAbs (nn : Word)
  -- 42_shift_rotate.md
  | aslAcc
  | aslZp (n : Byte)
  | aslZpx (n : Byte)
  | aslAbs (nn : Word)
  | aslAbx (nn : Word)
  | lsrAcc
  | lsrZp (n : Byte)
  | lsrZpx (n : Byte)
  | lsrAbs (nn : Word)
  | lsrAbx (nn : Word)
  | rolAcc
  | rolZp (n : Byte)
  | rolZpx (n : Byte)
  | rolAbs (nn : Word)
  | rolAbx (nn : Word)
  | rorAcc
  | rorZp (n : Byte)
  | rorZpx (n : Byte)
  | rorAbs (nn : Word)
  | rorAbx (nn : Word)
  -- 43_branch.md
  | bcc (n : Byte)
  | bcs (n : Byte)
  | beq (n : Byte)
  | bne (n : Byte)
  | bmi (n : Byte)
  | bpl (n : Byte)
  | bvc (n : Byte)
  | bvs (n : Byte)
  -- 44_flag.md
  | clc
  | cld
  | cli
  | clv
  | sec
  | sed
  | sei
  -- 45_incdec.md
  | decZp (n : Byte)
  | decZpx (n : Byte)
  | decAbs (nn : Word)
  | decAbx (nn : Word)
  | dex
  | dey
  | incZp (n : Byte)
  | incZpx (n : Byte)
  | incAbs (nn : Word)
  | incAbx (nn : Word)
  | inx
  | iny
  -- 46_jump_subroutine.md
  | jmpAbs (nn : Word)
  | jmpInd (nn : Word)
  | jsr (nn : Word)
  | rts
  -- 47_load_store.md
  | ldaImm (n : Byte)
  | ldaZp (n : Byte)
  | ldaZpx (n : Byte)
  | ldaAbs (nn : Word)
  | ldaAbx (nn : Word)
  | ldaAby (nn : Word)
  | ldaInx (n : Byte)
  | ldaIny (n : Byte)
  | ldxImm (n : Byte)
  | ldxZp (n : Byte)
  | ldxZpy (n : Byte)
  | ldxAbs (nn : Word)
  | ldxAby (nn : Word)
  | ldyImm (n : Byte)
  | ldyZp (n : Byte)
  | ldyZpx (n : Byte)
  | ldyAbs (nn : Word)
  | ldyAbx (nn : Word)
  | staZp (n : Byte)
  | staZpx (n : Byte)
  | staAbs (nn : Word)
  | staAbx (nn : Word)
  | staAby (nn : Word)
  | staInx (n : Byte)
  | staIny (n : Byte)
  | stxZp (n : Byte)
  | stxZpy (n : Byte)
  | stxAbs (nn : Word)
  | styZp (n : Byte)
  | styZpx (n : Byte)
  | styAbs (nn : Word)
  -- 48_stack_transfer.md
  | pha
  | php
  | pla
  | plp
  | tax
  | tay
  | tsx
  | txa
  | txs
  | tya
  -- 49_system.md
  | brk
  | rti
  | nop
deriving DecidableEq, Repr

/-- The mnemonic of the instruction's row of R95. -/
def Instr.mnemonic : Instr → Mnemonic
  | .adcImm _ | .adcZp _ | .adcZpx _ | .adcAbs _ | .adcAbx _ | .adcAby _ | .adcInx _ | .adcIny _ => .adc
  | .sbcImm _ | .sbcZp _ | .sbcZpx _ | .sbcAbs _ | .sbcAbx _ | .sbcAby _ | .sbcInx _ | .sbcIny _ => .sbc
  | .cmpImm _ | .cmpZp _ | .cmpZpx _ | .cmpAbs _ | .cmpAbx _ | .cmpAby _ | .cmpInx _ | .cmpIny _ => .cmp
  | .cpxImm _ | .cpxZp _ | .cpxAbs _ => .cpx
  | .cpyImm _ | .cpyZp _ | .cpyAbs _ => .cpy
  | .andImm _ | .andZp _ | .andZpx _ | .andAbs _ | .andAbx _ | .andAby _ | .andInx _ | .andIny _ => .and
  | .eorImm _ | .eorZp _ | .eorZpx _ | .eorAbs _ | .eorAbx _ | .eorAby _ | .eorInx _ | .eorIny _ => .eor
  | .oraImm _ | .oraZp _ | .oraZpx _ | .oraAbs _ | .oraAbx _ | .oraAby _ | .oraInx _ | .oraIny _ => .ora
  | .bitZp _ | .bitAbs _ => .bit
  | .aslAcc | .aslZp _ | .aslZpx _ | .aslAbs _ | .aslAbx _ => .asl
  | .lsrAcc | .lsrZp _ | .lsrZpx _ | .lsrAbs _ | .lsrAbx _ => .lsr
  | .rolAcc | .rolZp _ | .rolZpx _ | .rolAbs _ | .rolAbx _ => .rol
  | .rorAcc | .rorZp _ | .rorZpx _ | .rorAbs _ | .rorAbx _ => .ror
  | .bcc _ => .bcc
  | .bcs _ => .bcs
  | .beq _ => .beq
  | .bne _ => .bne
  | .bmi _ => .bmi
  | .bpl _ => .bpl
  | .bvc _ => .bvc
  | .bvs _ => .bvs
  | .clc => .clc
  | .cld => .cld
  | .cli => .cli
  | .clv => .clv
  | .sec => .sec
  | .sed => .sed
  | .sei => .sei
  | .decZp _ | .decZpx _ | .decAbs _ | .decAbx _ => .dec
  | .dex => .dex
  | .dey => .dey
  | .incZp _ | .incZpx _ | .incAbs _ | .incAbx _ => .inc
  | .inx => .inx
  | .iny => .iny
  | .jmpAbs _ | .jmpInd _ => .jmp
  | .jsr _ => .jsr
  | .rts => .rts
  | .ldaImm _ | .ldaZp _ | .ldaZpx _ | .ldaAbs _ | .ldaAbx _ | .ldaAby _ | .ldaInx _ | .ldaIny _ => .lda
  | .ldxImm _ | .ldxZp _ | .ldxZpy _ | .ldxAbs _ | .ldxAby _ => .ldx
  | .ldyImm _ | .ldyZp _ | .ldyZpx _ | .ldyAbs _ | .ldyAbx _ => .ldy
  | .staZp _ | .staZpx _ | .staAbs _ | .staAbx _ | .staAby _ | .staInx _ | .staIny _ => .sta
  | .stxZp _ | .stxZpy _ | .stxAbs _ => .stx
  | .styZp _ | .styZpx _ | .styAbs _ => .sty
  | .pha => .pha
  | .php => .php
  | .pla => .pla
  | .plp => .plp
  | .tax => .tax
  | .tay => .tay
  | .tsx => .tsx
  | .txa => .txa
  | .txs => .txs
  | .tya => .tya
  | .brk => .brk
  | .rti => .rti
  | .nop => .nop

/-- The addressing form, with its operand, of the instruction's row of R95. -/
def Instr.form : Instr → Form
  | .adcImm n => .data (.imm n)
  | .adcZp n => .data (.mem (.zp n))
  | .adcZpx n => .data (.mem (.zpx n))
  | .adcAbs nn => .data (.mem (.abs nn))
  | .adcAbx nn => .data (.mem (.abx nn))
  | .adcAby nn => .data (.mem (.aby nn))
  | .adcInx n => .data (.mem (.inx n))
  | .adcIny n => .data (.mem (.iny n))
  | .sbcImm n => .data (.imm n)
  | .sbcZp n => .data (.mem (.zp n))
  | .sbcZpx n => .data (.mem (.zpx n))
  | .sbcAbs nn => .data (.mem (.abs nn))
  | .sbcAbx nn => .data (.mem (.abx nn))
  | .sbcAby nn => .data (.mem (.aby nn))
  | .sbcInx n => .data (.mem (.inx n))
  | .sbcIny n => .data (.mem (.iny n))
  | .cmpImm n => .data (.imm n)
  | .cmpZp n => .data (.mem (.zp n))
  | .cmpZpx n => .data (.mem (.zpx n))
  | .cmpAbs nn => .data (.mem (.abs nn))
  | .cmpAbx nn => .data (.mem (.abx nn))
  | .cmpAby nn => .data (.mem (.aby nn))
  | .cmpInx n => .data (.mem (.inx n))
  | .cmpIny n => .data (.mem (.iny n))
  | .cpxImm n => .data (.imm n)
  | .cpxZp n => .data (.mem (.zp n))
  | .cpxAbs nn => .data (.mem (.abs nn))
  | .cpyImm n => .data (.imm n)
  | .cpyZp n => .data (.mem (.zp n))
  | .cpyAbs nn => .data (.mem (.abs nn))
  | .andImm n => .data (.imm n)
  | .andZp n => .data (.mem (.zp n))
  | .andZpx n => .data (.mem (.zpx n))
  | .andAbs nn => .data (.mem (.abs nn))
  | .andAbx nn => .data (.mem (.abx nn))
  | .andAby nn => .data (.mem (.aby nn))
  | .andInx n => .data (.mem (.inx n))
  | .andIny n => .data (.mem (.iny n))
  | .eorImm n => .data (.imm n)
  | .eorZp n => .data (.mem (.zp n))
  | .eorZpx n => .data (.mem (.zpx n))
  | .eorAbs nn => .data (.mem (.abs nn))
  | .eorAbx nn => .data (.mem (.abx nn))
  | .eorAby nn => .data (.mem (.aby nn))
  | .eorInx n => .data (.mem (.inx n))
  | .eorIny n => .data (.mem (.iny n))
  | .oraImm n => .data (.imm n)
  | .oraZp n => .data (.mem (.zp n))
  | .oraZpx n => .data (.mem (.zpx n))
  | .oraAbs nn => .data (.mem (.abs nn))
  | .oraAbx nn => .data (.mem (.abx nn))
  | .oraAby nn => .data (.mem (.aby nn))
  | .oraInx n => .data (.mem (.inx n))
  | .oraIny n => .data (.mem (.iny n))
  | .bitZp n => .data (.mem (.zp n))
  | .bitAbs nn => .data (.mem (.abs nn))
  | .aslAcc => .acc
  | .aslZp n => .data (.mem (.zp n))
  | .aslZpx n => .data (.mem (.zpx n))
  | .aslAbs nn => .data (.mem (.abs nn))
  | .aslAbx nn => .data (.mem (.abx nn))
  | .lsrAcc => .acc
  | .lsrZp n => .data (.mem (.zp n))
  | .lsrZpx n => .data (.mem (.zpx n))
  | .lsrAbs nn => .data (.mem (.abs nn))
  | .lsrAbx nn => .data (.mem (.abx nn))
  | .rolAcc => .acc
  | .rolZp n => .data (.mem (.zp n))
  | .rolZpx n => .data (.mem (.zpx n))
  | .rolAbs nn => .data (.mem (.abs nn))
  | .rolAbx nn => .data (.mem (.abx nn))
  | .rorAcc => .acc
  | .rorZp n => .data (.mem (.zp n))
  | .rorZpx n => .data (.mem (.zpx n))
  | .rorAbs nn => .data (.mem (.abs nn))
  | .rorAbx nn => .data (.mem (.abx nn))
  | .bcc n => .rel n
  | .bcs n => .rel n
  | .beq n => .rel n
  | .bne n => .rel n
  | .bmi n => .rel n
  | .bpl n => .rel n
  | .bvc n => .rel n
  | .bvs n => .rel n
  | .clc => .imp
  | .cld => .imp
  | .cli => .imp
  | .clv => .imp
  | .sec => .imp
  | .sed => .imp
  | .sei => .imp
  | .decZp n => .data (.mem (.zp n))
  | .decZpx n => .data (.mem (.zpx n))
  | .decAbs nn => .data (.mem (.abs nn))
  | .decAbx nn => .data (.mem (.abx nn))
  | .dex => .imp
  | .dey => .imp
  | .incZp n => .data (.mem (.zp n))
  | .incZpx n => .data (.mem (.zpx n))
  | .incAbs nn => .data (.mem (.abs nn))
  | .incAbx nn => .data (.mem (.abx nn))
  | .inx => .imp
  | .iny => .imp
  | .jmpAbs nn => .data (.mem (.abs nn))
  | .jmpInd nn => .ind nn
  | .jsr nn => .data (.mem (.abs nn))
  | .rts => .imp
  | .ldaImm n => .data (.imm n)
  | .ldaZp n => .data (.mem (.zp n))
  | .ldaZpx n => .data (.mem (.zpx n))
  | .ldaAbs nn => .data (.mem (.abs nn))
  | .ldaAbx nn => .data (.mem (.abx nn))
  | .ldaAby nn => .data (.mem (.aby nn))
  | .ldaInx n => .data (.mem (.inx n))
  | .ldaIny n => .data (.mem (.iny n))
  | .ldxImm n => .data (.imm n)
  | .ldxZp n => .data (.mem (.zp n))
  | .ldxZpy n => .data (.mem (.zpy n))
  | .ldxAbs nn => .data (.mem (.abs nn))
  | .ldxAby nn => .data (.mem (.aby nn))
  | .ldyImm n => .data (.imm n)
  | .ldyZp n => .data (.mem (.zp n))
  | .ldyZpx n => .data (.mem (.zpx n))
  | .ldyAbs nn => .data (.mem (.abs nn))
  | .ldyAbx nn => .data (.mem (.abx nn))
  | .staZp n => .data (.mem (.zp n))
  | .staZpx n => .data (.mem (.zpx n))
  | .staAbs nn => .data (.mem (.abs nn))
  | .staAbx nn => .data (.mem (.abx nn))
  | .staAby nn => .data (.mem (.aby nn))
  | .staInx n => .data (.mem (.inx n))
  | .staIny n => .data (.mem (.iny n))
  | .stxZp n => .data (.mem (.zp n))
  | .stxZpy n => .data (.mem (.zpy n))
  | .stxAbs nn => .data (.mem (.abs nn))
  | .styZp n => .data (.mem (.zp n))
  | .styZpx n => .data (.mem (.zpx n))
  | .styAbs nn => .data (.mem (.abs nn))
  | .pha => .imp
  | .php => .imp
  | .pla => .imp
  | .plp => .imp
  | .tax => .imp
  | .tay => .imp
  | .tsx => .imp
  | .txa => .imp
  | .txs => .imp
  | .tya => .imp
  | .brk => .imp
  | .rti => .imp
  | .nop => .imp

end Sys2Proof
end

