-- ==== Sys2Proof/Decode.lean ====
section
/-! DEFINITION. Bytes to instructions and back (spec 30_encoding.md R80 to R82, R95, R97), and the byte-order and
sign-extension helpers (20_memory.md R53, 00_scope.md R11). -/

namespace Sys2Proof

/-- `hi:lo`, the word whose high and low bytes these are (R9). -/
def joinBytes (hi lo : Byte) : Word := hi ++ lo

/-- `w[15:8]` (R9). -/
def highByte (w : Word) : Byte := w.extractLsb' 8 8

/-- `w[7:0]` (R9). -/
def lowByte (w : Word) : Byte := w.extractLsb' 0 8

/-- `zext_16(v)` (R11). -/
def zeroExtend16 (v : Byte) : Word := v.setWidth 16

/-- `sext_16(v)` (R11, R82): the signed number a Relative operand stands for. -/
def signExtend16 (v : Byte) : Word := v.signExtend 16

/-- What an opcode byte says of its instruction (R80, R81): it is complete, or it takes a byte `n`, or a word `nn`. -/
inductive Shape where
  | one (i : Instr)
  | two (mk : Byte → Instr)
  | three (mk : Word → Instr)

/-- The length in bytes of an instruction of the shape (R80). -/
def Shape.length : Shape → Nat
  | .one _ => 1
  | .two _ => 2
  | .three _ => 3

/-- The instruction that the operand bytes complete; nn is stored low byte first (R53, R82). -/
def Shape.complete (b1 b2 : Byte) : Shape → Instr
  | .one i => i
  | .two mk => mk b1
  | .three mk => mk (joinBytes b2 b1)

/-- The opcode table of R95, in opcode order; the 105 bytes without a row are undefined (R97). -/
def opcodeShape (op : Byte) : Option Shape :=
  match op.toNat with
  | 0x00 => some (.one .brk)
  | 0x01 => some (.two .oraInx)
  | 0x05 => some (.two .oraZp)
  | 0x06 => some (.two .aslZp)
  | 0x08 => some (.one .php)
  | 0x09 => some (.two .oraImm)
  | 0x0A => some (.one .aslAcc)
  | 0x0D => some (.three .oraAbs)
  | 0x0E => some (.three .aslAbs)
  | 0x10 => some (.two .bpl)
  | 0x11 => some (.two .oraIny)
  | 0x15 => some (.two .oraZpx)
  | 0x16 => some (.two .aslZpx)
  | 0x18 => some (.one .clc)
  | 0x19 => some (.three .oraAby)
  | 0x1D => some (.three .oraAbx)
  | 0x1E => some (.three .aslAbx)
  | 0x20 => some (.three .jsr)
  | 0x21 => some (.two .andInx)
  | 0x24 => some (.two .bitZp)
  | 0x25 => some (.two .andZp)
  | 0x26 => some (.two .rolZp)
  | 0x28 => some (.one .plp)
  | 0x29 => some (.two .andImm)
  | 0x2A => some (.one .rolAcc)
  | 0x2C => some (.three .bitAbs)
  | 0x2D => some (.three .andAbs)
  | 0x2E => some (.three .rolAbs)
  | 0x30 => some (.two .bmi)
  | 0x31 => some (.two .andIny)
  | 0x35 => some (.two .andZpx)
  | 0x36 => some (.two .rolZpx)
  | 0x38 => some (.one .sec)
  | 0x39 => some (.three .andAby)
  | 0x3D => some (.three .andAbx)
  | 0x3E => some (.three .rolAbx)
  | 0x40 => some (.one .rti)
  | 0x41 => some (.two .eorInx)
  | 0x45 => some (.two .eorZp)
  | 0x46 => some (.two .lsrZp)
  | 0x48 => some (.one .pha)
  | 0x49 => some (.two .eorImm)
  | 0x4A => some (.one .lsrAcc)
  | 0x4C => some (.three .jmpAbs)
  | 0x4D => some (.three .eorAbs)
  | 0x4E => some (.three .lsrAbs)
  | 0x50 => some (.two .bvc)
  | 0x51 => some (.two .eorIny)
  | 0x55 => some (.two .eorZpx)
  | 0x56 => some (.two .lsrZpx)
  | 0x58 => some (.one .cli)
  | 0x59 => some (.three .eorAby)
  | 0x5D => some (.three .eorAbx)
  | 0x5E => some (.three .lsrAbx)
  | 0x60 => some (.one .rts)
  | 0x61 => some (.two .adcInx)
  | 0x65 => some (.two .adcZp)
  | 0x66 => some (.two .rorZp)
  | 0x68 => some (.one .pla)
  | 0x69 => some (.two .adcImm)
  | 0x6A => some (.one .rorAcc)
  | 0x6C => some (.three .jmpInd)
  | 0x6D => some (.three .adcAbs)
  | 0x6E => some (.three .rorAbs)
  | 0x70 => some (.two .bvs)
  | 0x71 => some (.two .adcIny)
  | 0x75 => some (.two .adcZpx)
  | 0x76 => some (.two .rorZpx)
  | 0x78 => some (.one .sei)
  | 0x79 => some (.three .adcAby)
  | 0x7D => some (.three .adcAbx)
  | 0x7E => some (.three .rorAbx)
  | 0x81 => some (.two .staInx)
  | 0x84 => some (.two .styZp)
  | 0x85 => some (.two .staZp)
  | 0x86 => some (.two .stxZp)
  | 0x88 => some (.one .dey)
  | 0x8A => some (.one .txa)
  | 0x8C => some (.three .styAbs)
  | 0x8D => some (.three .staAbs)
  | 0x8E => some (.three .stxAbs)
  | 0x90 => some (.two .bcc)
  | 0x91 => some (.two .staIny)
  | 0x94 => some (.two .styZpx)
  | 0x95 => some (.two .staZpx)
  | 0x96 => some (.two .stxZpy)
  | 0x98 => some (.one .tya)
  | 0x99 => some (.three .staAby)
  | 0x9A => some (.one .txs)
  | 0x9D => some (.three .staAbx)
  | 0xA0 => some (.two .ldyImm)
  | 0xA1 => some (.two .ldaInx)
  | 0xA2 => some (.two .ldxImm)
  | 0xA4 => some (.two .ldyZp)
  | 0xA5 => some (.two .ldaZp)
  | 0xA6 => some (.two .ldxZp)
  | 0xA8 => some (.one .tay)
  | 0xA9 => some (.two .ldaImm)
  | 0xAA => some (.one .tax)
  | 0xAC => some (.three .ldyAbs)
  | 0xAD => some (.three .ldaAbs)
  | 0xAE => some (.three .ldxAbs)
  | 0xB0 => some (.two .bcs)
  | 0xB1 => some (.two .ldaIny)
  | 0xB4 => some (.two .ldyZpx)
  | 0xB5 => some (.two .ldaZpx)
  | 0xB6 => some (.two .ldxZpy)
  | 0xB8 => some (.one .clv)
  | 0xB9 => some (.three .ldaAby)
  | 0xBA => some (.one .tsx)
  | 0xBC => some (.three .ldyAbx)
  | 0xBD => some (.three .ldaAbx)
  | 0xBE => some (.three .ldxAby)
  | 0xC0 => some (.two .cpyImm)
  | 0xC1 => some (.two .cmpInx)
  | 0xC4 => some (.two .cpyZp)
  | 0xC5 => some (.two .cmpZp)
  | 0xC6 => some (.two .decZp)
  | 0xC8 => some (.one .iny)
  | 0xC9 => some (.two .cmpImm)
  | 0xCA => some (.one .dex)
  | 0xCC => some (.three .cpyAbs)
  | 0xCD => some (.three .cmpAbs)
  | 0xCE => some (.three .decAbs)
  | 0xD0 => some (.two .bne)
  | 0xD1 => some (.two .cmpIny)
  | 0xD5 => some (.two .cmpZpx)
  | 0xD6 => some (.two .decZpx)
  | 0xD8 => some (.one .cld)
  | 0xD9 => some (.three .cmpAby)
  | 0xDD => some (.three .cmpAbx)
  | 0xDE => some (.three .decAbx)
  | 0xE0 => some (.two .cpxImm)
  | 0xE1 => some (.two .sbcInx)
  | 0xE4 => some (.two .cpxZp)
  | 0xE5 => some (.two .sbcZp)
  | 0xE6 => some (.two .incZp)
  | 0xE8 => some (.one .inx)
  | 0xE9 => some (.two .sbcImm)
  | 0xEA => some (.one .nop)
  | 0xEC => some (.three .cpxAbs)
  | 0xED => some (.three .sbcAbs)
  | 0xEE => some (.three .incAbs)
  | 0xF0 => some (.two .beq)
  | 0xF1 => some (.two .sbcIny)
  | 0xF5 => some (.two .sbcZpx)
  | 0xF6 => some (.two .incZpx)
  | 0xF8 => some (.one .sed)
  | 0xF9 => some (.three .sbcAby)
  | 0xFD => some (.three .sbcAbx)
  | 0xFE => some (.three .incAbx)
  | _ => none

/-- Why bytes are no instruction: the first is undefined (R97), or they end before the instruction does. -/
inductive DecodeError where
  | undefinedOpcode (op : Byte)
  | truncated
deriving DecidableEq, Repr

/-- The instruction at the head of `bytes`, and the bytes after it. The length follows from the opcode byte alone (R81). -/
def decode (bytes : List Byte) : Except DecodeError (Instr × List Byte) :=
  match bytes with
  | [] => .error .truncated
  | op :: rest =>
    match opcodeShape op, rest with
    | none, _ => .error (.undefinedOpcode op)
    | some (.one i), _ => .ok (i, rest)
    | some (.two mk), n :: rest' => .ok (mk n, rest')
    | some (.two _), [] => .error .truncated
    | some (.three mk), lo :: hi :: rest' => .ok (mk (joinBytes hi lo), rest')
    | some (.three _), _ => .error .truncated

/-- Byte 0 of the instruction: the opcode column of R95. -/
def Instr.opcode : Instr → Byte
  | .adcImm _ => 0x69#8
  | .adcZp _ => 0x65#8
  | .adcZpx _ => 0x75#8
  | .adcAbs _ => 0x6D#8
  | .adcAbx _ => 0x7D#8
  | .adcAby _ => 0x79#8
  | .adcInx _ => 0x61#8
  | .adcIny _ => 0x71#8
  | .sbcImm _ => 0xE9#8
  | .sbcZp _ => 0xE5#8
  | .sbcZpx _ => 0xF5#8
  | .sbcAbs _ => 0xED#8
  | .sbcAbx _ => 0xFD#8
  | .sbcAby _ => 0xF9#8
  | .sbcInx _ => 0xE1#8
  | .sbcIny _ => 0xF1#8
  | .cmpImm _ => 0xC9#8
  | .cmpZp _ => 0xC5#8
  | .cmpZpx _ => 0xD5#8
  | .cmpAbs _ => 0xCD#8
  | .cmpAbx _ => 0xDD#8
  | .cmpAby _ => 0xD9#8
  | .cmpInx _ => 0xC1#8
  | .cmpIny _ => 0xD1#8
  | .cpxImm _ => 0xE0#8
  | .cpxZp _ => 0xE4#8
  | .cpxAbs _ => 0xEC#8
  | .cpyImm _ => 0xC0#8
  | .cpyZp _ => 0xC4#8
  | .cpyAbs _ => 0xCC#8
  | .andImm _ => 0x29#8
  | .andZp _ => 0x25#8
  | .andZpx _ => 0x35#8
  | .andAbs _ => 0x2D#8
  | .andAbx _ => 0x3D#8
  | .andAby _ => 0x39#8
  | .andInx _ => 0x21#8
  | .andIny _ => 0x31#8
  | .eorImm _ => 0x49#8
  | .eorZp _ => 0x45#8
  | .eorZpx _ => 0x55#8
  | .eorAbs _ => 0x4D#8
  | .eorAbx _ => 0x5D#8
  | .eorAby _ => 0x59#8
  | .eorInx _ => 0x41#8
  | .eorIny _ => 0x51#8
  | .oraImm _ => 0x09#8
  | .oraZp _ => 0x05#8
  | .oraZpx _ => 0x15#8
  | .oraAbs _ => 0x0D#8
  | .oraAbx _ => 0x1D#8
  | .oraAby _ => 0x19#8
  | .oraInx _ => 0x01#8
  | .oraIny _ => 0x11#8
  | .bitZp _ => 0x24#8
  | .bitAbs _ => 0x2C#8
  | .aslAcc => 0x0A#8
  | .aslZp _ => 0x06#8
  | .aslZpx _ => 0x16#8
  | .aslAbs _ => 0x0E#8
  | .aslAbx _ => 0x1E#8
  | .lsrAcc => 0x4A#8
  | .lsrZp _ => 0x46#8
  | .lsrZpx _ => 0x56#8
  | .lsrAbs _ => 0x4E#8
  | .lsrAbx _ => 0x5E#8
  | .rolAcc => 0x2A#8
  | .rolZp _ => 0x26#8
  | .rolZpx _ => 0x36#8
  | .rolAbs _ => 0x2E#8
  | .rolAbx _ => 0x3E#8
  | .rorAcc => 0x6A#8
  | .rorZp _ => 0x66#8
  | .rorZpx _ => 0x76#8
  | .rorAbs _ => 0x6E#8
  | .rorAbx _ => 0x7E#8
  | .bcc _ => 0x90#8
  | .bcs _ => 0xB0#8
  | .beq _ => 0xF0#8
  | .bne _ => 0xD0#8
  | .bmi _ => 0x30#8
  | .bpl _ => 0x10#8
  | .bvc _ => 0x50#8
  | .bvs _ => 0x70#8
  | .clc => 0x18#8
  | .cld => 0xD8#8
  | .cli => 0x58#8
  | .clv => 0xB8#8
  | .sec => 0x38#8
  | .sed => 0xF8#8
  | .sei => 0x78#8
  | .decZp _ => 0xC6#8
  | .decZpx _ => 0xD6#8
  | .decAbs _ => 0xCE#8
  | .decAbx _ => 0xDE#8
  | .dex => 0xCA#8
  | .dey => 0x88#8
  | .incZp _ => 0xE6#8
  | .incZpx _ => 0xF6#8
  | .incAbs _ => 0xEE#8
  | .incAbx _ => 0xFE#8
  | .inx => 0xE8#8
  | .iny => 0xC8#8
  | .jmpAbs _ => 0x4C#8
  | .jmpInd _ => 0x6C#8
  | .jsr _ => 0x20#8
  | .rts => 0x60#8
  | .ldaImm _ => 0xA9#8
  | .ldaZp _ => 0xA5#8
  | .ldaZpx _ => 0xB5#8
  | .ldaAbs _ => 0xAD#8
  | .ldaAbx _ => 0xBD#8
  | .ldaAby _ => 0xB9#8
  | .ldaInx _ => 0xA1#8
  | .ldaIny _ => 0xB1#8
  | .ldxImm _ => 0xA2#8
  | .ldxZp _ => 0xA6#8
  | .ldxZpy _ => 0xB6#8
  | .ldxAbs _ => 0xAE#8
  | .ldxAby _ => 0xBE#8
  | .ldyImm _ => 0xA0#8
  | .ldyZp _ => 0xA4#8
  | .ldyZpx _ => 0xB4#8
  | .ldyAbs _ => 0xAC#8
  | .ldyAbx _ => 0xBC#8
  | .staZp _ => 0x85#8
  | .staZpx _ => 0x95#8
  | .staAbs _ => 0x8D#8
  | .staAbx _ => 0x9D#8
  | .staAby _ => 0x99#8
  | .staInx _ => 0x81#8
  | .staIny _ => 0x91#8
  | .stxZp _ => 0x86#8
  | .stxZpy _ => 0x96#8
  | .stxAbs _ => 0x8E#8
  | .styZp _ => 0x84#8
  | .styZpx _ => 0x94#8
  | .styAbs _ => 0x8C#8
  | .pha => 0x48#8
  | .php => 0x08#8
  | .pla => 0x68#8
  | .plp => 0x28#8
  | .tax => 0xAA#8
  | .tay => 0xA8#8
  | .tsx => 0xBA#8
  | .txa => 0x8A#8
  | .txs => 0x9A#8
  | .tya => 0x98#8
  | .brk => 0x00#8
  | .rti => 0x40#8
  | .nop => 0xEA#8

/-- A word as it is stored: low byte, then high byte (R53). -/
def storedWord (w : Word) : List Byte := [lowByte w, highByte w]

/-- The operand byte or bytes of an effective-address form (R82). -/
def MemForm.bytes : MemForm → List Byte
  | .zp n => [n]
  | .zpx n => [n]
  | .zpy n => [n]
  | .abs nn => storedWord nn
  | .abx nn => storedWord nn
  | .aby nn => storedWord nn
  | .inx n => [n]
  | .iny n => [n]

/-- The operand bytes of a form, in address order (R80, R82). -/
def Form.bytes : Form → List Byte
  | .imp => []
  | .acc => []
  | .data (.imm n) => [n]
  | .data (.mem m) => m.bytes
  | .ind nn => storedWord nn
  | .rel n => [n]

/-- The bytes of the instruction, the opcode at the lowest address (R80). -/
def encode (i : Instr) : List Byte := i.opcode :: i.form.bytes

/-- The instruction's three bytes as the opcode table numbers its bits: byte k is bits 8k+7 to 8k, and every bit from
`nbits` up is 0. -/
def tableWordBytes (nbits w : Nat) : List Byte :=
  let v := w % 2 ^ nbits
  [BitVec.ofNat 8 v, BitVec.ofNat 8 (v / 256), BitVec.ofNat 8 (v / 65536)]

/-- The instruction that `decode` reads from an opcode-table word. -/
def decodeTableWord (nbits w : Nat) : Option Instr :=
  match decode (tableWordBytes nbits w) with
  | .ok (i, _) => some i
  | .error _ => none

end Sys2Proof
end

