-- ==== Sys2Proof/Machine/Memory.lean ====
section
/-! DEFINITION. The contents of the address space as a canonical list of cells (spec 20_memory.md R50, R52). -/

namespace Sys2Proof.Machine

/-- The bytes that the address space holds: (address, byte) pairs, addresses strictly rising, none equal to what an
unlisted address reads as. -/
abbrev Memory := List Host.Cell

/-- What an unlisted address reads as. DESIGN CHOICE (log 4, unsafe): the spec gives RAM no contents at power-on (R253). -/
def unlistedByte : Byte := 0x00#8

/-- The byte at an address (`MemRead`, R52). -/
def Memory.read : Memory → Nat → Byte
  | [], _ => unlistedByte
  | (k, v) :: m, a => if k = a then v else Memory.read m a

/-- Put one cell in front of a memory, unless an unlisted address already reads so. -/
def Memory.consCell (a : Nat) (v : Byte) (m : Memory) : Memory :=
  if v = unlistedByte then m else (a, v) :: m

/-- Store a byte at an address (`MemWrite`, R52), keeping the canonical form. -/
def Memory.write : Memory → Nat → Byte → Memory
  | [], a, b => Memory.consCell a b []
  | (k, v) :: m, a, b =>
    if a < k then Memory.consCell a b ((k, v) :: m)
    else if a = k then Memory.consCell a b m
    else (k, v) :: Memory.write m a b

/-- Every listed address is above `a`. -/
def Memory.above (a : Nat) (m : Memory) : Bool := m.all fun c => decide (a < c.1)

/-- The canonical form: addresses below 65536 (R50) and strictly rising, no byte an unlisted address reads as. -/
def Memory.wf : Memory → Bool
  | [] => true
  | (k, v) :: m => decide (k < 65536) && v != unlistedByte && Memory.above k m && Memory.wf m

end Sys2Proof.Machine
end

