-- ==== Sys2Proof/Machine/Platform.lean ====
section
/-! DEFINITION. The parameters (spec 00_scope.md R7) that the machine has at `State.reset`. -/

namespace Sys2Proof.Machine

/-- The parameters at reset: the defaults of R7. MEMMAP, which R7 leaves to the platform, is RAM everywhere (DESIGN CHOICE,
unsafe: log 6). -/
def resetParams : Params where
  hasRor := true
  memMap := []
  stackInPageZero := false
  zpPtrCross := .refuse
  jmpIndCross := .refuse
  decimalMode := .bcdValidOnly
  soPinUsed := false

end Sys2Proof.Machine
end

