-- ==== Sys2Proof/Machine/State.lean ====
section
/-! DEFINITION. The state of the 6502, its refusals, and the state after reset (spec 10_state.md, 60_exceptions.md R223 to
R228, 70_reset_and_hazards.md R250). -/

namespace Sys2Proof.Machine

/-- P, as the six flags that the register holds (R26, R29, D5): bit 5 and B exist only in a pushed byte (log 16). -/
structure Flags where
  /-- bit 7, negative (R27) -/
  n : Bool
  /-- bit 6, overflow (R28) -/
  v : Bool
  /-- bit 3, decimal mode (R31) -/
  d : Bool
  /-- bit 2, IRQ disable (R32) -/
  i : Bool
  /-- bit 1, zero (R33) -/
  z : Bool
  /-- bit 0, carry; after a subtraction 1 means no borrow (R34, C1) -/
  c : Bool
deriving DecidableEq, Repr

/-- What one instruction boundary sees of the three input lines (R223, R228). -/
structure LineSample where
  /-- RES is asserted (R226) -/
  res : Bool
  /-- the NMI line has had a high-to-low transition since the boundary before (R38, R225) -/
  nmiFell : Bool
  /-- the IRQ line is low (R39, R224) -/
  irqLow : Bool
deriving DecidableEq, Repr

/-- The machine: the registers of R20, the NMI latch of R38, memory, and the platform's side as data. -/
structure State where
  /-- A, the accumulator (R21) -/
  a : Byte
  /-- X (R22) -/
  x : Byte
  /-- Y (R22) -/
  y : Byte
  /-- S, the stack pointer: the offset in page 1 of the next free byte (R24, R59) -/
  sp : Byte
  /-- PC: between instructions, the address of the next opcode byte (R23) -/
  pc : Word
  /-- P (R25, R26) -/
  p : Flags
  /-- the NMI pending latch (R38) -/
  nmiPending : Bool
  /-- the contents of RAM and ROM (R50, R51) -/
  mem : Memory
  /-- the lines at the coming boundaries, the next one first; after the last, no line is asserted (log 13) -/
  inputs : List LineSample
  /-- the output events of writes to I/O and unpopulated addresses (R51), newest first (log 12) -/
  outputs : List Host.Cell
  /-- the model's own field: the boundaries evaluated, which the free values of Config are applied to (log 11) -/
  turn : Nat
  /-- the cycle observer of R260 to R264; nothing reads it (log 21) -/
  cycles : Nat
  /-- the parameters of R7; no step changes them (log 5) -/
  params : Params
deriving DecidableEq, Repr

/-- A fault of the hardware. There is none: no instruction traps on a bad address, a bad opcode or an arithmetic condition
(R12, R220). -/
inductive Fault where
deriving DecidableEq, Repr

/-- Why the model gives a step no meaning: the closed list of R12, less `UnspecifiedRead` (every register holds a value at
reset, logs 1 and 2). All are safe: nothing is claimed of what the hardware does then. -/
inductive Refusal where
  /-- an instruction without a meaning; raised by no arm of `exec`; safe -/
  | notModelled (mnemonic : String)
  /-- `UndefinedOpcode` (R97, D1): raised by the fetch of one of the 105 bytes without a row, and by ROR on a part without
  it (R8); safe -/
  | undefinedOpcode (op : Byte)
  /-- `ZeroPagePointerCross` (R88, R89, D9): raised by `(n,X)` and `(n),Y` under `ZP_PTR_CROSS = refuse`; safe -/
  | zeroPagePointerCross
  /-- `JmpIndirectCross` (R181, D10): raised by `JMP (nn)` under `JMP_IND_CROSS = refuse`; safe -/
  | jmpIndirectCross
  /-- `DecimalInvalidBCD` (R122, D4): raised by ADC and SBC under `DECIMAL_MODE = bcd_valid_only`; safe -/
  | decimalInvalidBcd
  /-- `DecimalRefused` (R122, D4): raised by ADC and SBC under `DECIMAL_MODE = refuse`; safe -/
  | decimalRefused
deriving DecidableEq, Repr

/-- The machine right after reset (R40, R250): I = 1, no NMI pending, PC from the RES vector, nothing in memory (log 4).
DESIGN CHOICE, unsafe: A, X, Y, S and the other flags are zero (logs 1 and 2), where the spec gives no value. -/
def State.reset : State where
  a := 0x00#8
  x := 0x00#8
  y := 0x00#8
  sp := 0x00#8
  pc := joinBytes (Memory.read [] 0xFFFD) (Memory.read [] 0xFFFC)
  p := { n := false, v := false, d := false, i := true, z := false, c := false }
  nmiPending := false
  mem := []
  inputs := []
  outputs := []
  turn := 0
  cycles := 0
  params := resetParams

end Sys2Proof.Machine
end

