-- ==== Sys2Proof/Machine/Flags.lean ====
section
/-! DEFINITION. The flag and result computations (spec 10_state.md R30, 20_memory.md R65, 40_arithmetic.md R120 to R123,
42_shift_rotate.md R140 to R143). -/

namespace Sys2Proof.Machine

/-- `setNZ(v)` (R30). -/
def Flags.setNZ (v : Byte) (f : Flags) : Flags := { f with n := v.msb, z := v == 0x00#8 }

/-- `Pbyte(b)` = N:V:1:b:D:I:Z:C, the image of P that is pushed (R65). UNVERIFIED (log 16, unsafe): bit 5, and bit 4 of
all but BRK, are the spec's decision D5. -/
def Flags.pByte (b : Bool) (f : Flags) : Byte :=
  BitVec.ofBool f.n ++ BitVec.ofBool f.v ++ 1#1 ++ BitVec.ofBool b ++ BitVec.ofBool f.d ++ BitVec.ofBool f.i
    ++ BitVec.ofBool f.z ++ BitVec.ofBool f.c

/-- `setP(v)`: the six flags of a pulled byte, whose bits 5 and 4 are discarded (R65, log 16). -/
def flagsOfByte (v : Byte) : Flags where
  n := v.getLsbD 7
  v := v.getLsbD 6
  d := v.getLsbD 3
  i := v.getLsbD 2
  z := v.getLsbD 1
  c := v.getLsbD 0

/-- `A + DATA + P.C`, exact (R120). -/
def addSum (a d : Byte) (c : Bool) : Nat := a.toNat + d.toNat + c.toNat

/-- `r` of binary ADC (R120). -/
def addResult (a d : Byte) (c : Bool) : Byte := BitVec.ofNat 8 (addSum a d c)

/-- C of binary ADC: the carry out of bit 7 (R120). -/
def addCarry (a d : Byte) (c : Bool) : Bool := decide (256 ≤ addSum a d c)

/-- V of binary ADC: bit 7 of `(A ^ r) & (DATA ^ r)` (R120). -/
def addOverflow (a d : Byte) (c : Bool) : Bool :=
  ((a ^^^ addResult a d c) &&& (d ^^^ addResult a d c)).msb

/-- `A - DATA - (1 - P.C)`, exact (R121). -/
def subDifference (a d : Byte) (c : Bool) : Int := (a.toNat : Int) - d.toNat - (1 - c.toNat)

/-- `r` of binary SBC (R121). -/
def subResult (a d : Byte) (c : Bool) : Byte := BitVec.ofInt 8 (subDifference a d c)

/-- C of binary SBC: 1 is no borrow (R121, R34). -/
def subCarry (a d : Byte) (c : Bool) : Bool := decide (0 ≤ subDifference a d c)

/-- V of binary SBC: bit 7 of `(A ^ DATA) & (A ^ r)` (R121). -/
def subOverflow (a d : Byte) (c : Bool) : Bool := ((a ^^^ d) &&& (a ^^^ subResult a d c)).msb

/-- `isBCD(v)`: both digits are 0 to 9 (R122). -/
def isBcd (v : Byte) : Bool := decide (v.toNat / 16 ≤ 9) && decide (v.toNat % 16 ≤ 9)

/-- `dec(v)`: the decimal number that a BCD byte stands for (R122). -/
def decimalOf (v : Byte) : Nat := 10 * (v.toNat / 16) + v.toNat % 16

/-- `bcd(k)`, for `0 <= k <= 99` (R122). -/
def bcdOf (k : Nat) : Byte := BitVec.ofNat 8 (16 * (k / 10) + k % 10)

/-- `s` of decimal ADC (R122). -/
def decimalSum (a d : Byte) (c : Bool) : Nat := decimalOf a + decimalOf d + c.toNat

/-- A of decimal ADC (R122). -/
def decimalAddResult (a d : Byte) (c : Bool) : Byte := bcdOf (decimalSum a d c % 100)

/-- C of decimal ADC (R122). -/
def decimalAddCarry (a d : Byte) (c : Bool) : Bool := decide (100 ≤ decimalSum a d c)

/-- `s` of decimal SBC (R122). -/
def decimalDifference (a d : Byte) (c : Bool) : Int := (decimalOf a : Int) - decimalOf d - (1 - c.toNat)

/-- A of decimal SBC (R122). -/
def decimalSubResult (a d : Byte) (c : Bool) : Byte :=
  let s := decimalDifference a d c
  if s < 0 then bcdOf (s + 100).toNat else bcdOf s.toNat

/-- C of decimal SBC (R122). -/
def decimalSubCarry (a d : Byte) (c : Bool) : Bool := decide (0 ≤ decimalDifference a d c)

/-- N, Z and C of a comparison of `r` with `d`; V is not written and the old C is not read (R123). -/
def Flags.compare (r d : Byte) (f : Flags) : Flags :=
  { f with c := decide (d.toNat ≤ r.toNat), z := r == d, n := (r - d).msb }

/-- N, V and Z of BIT (R133). -/
def Flags.bitTest (a d : Byte) (f : Flags) : Flags :=
  { f with n := d.getLsbD 7, v := d.getLsbD 6, z := (a &&& d) == 0x00#8 }

/-- The result and the flags of ASL (R140). -/
def aslResult (v : Byte) (f : Flags) : Byte × Flags :=
  let r : Byte := v <<< 1
  (r, { f with c := v.getLsbD 7 }.setNZ r)

/-- The result and the flags of LSR (R141). -/
def lsrResult (v : Byte) (f : Flags) : Byte × Flags :=
  let r : Byte := v >>> 1
  (r, { f with c := v.getLsbD 0, n := false, z := r == 0x00#8 })

/-- The result and the flags of ROL (R142): the old C comes in at bit 0. -/
def rolResult (v : Byte) (f : Flags) : Byte × Flags :=
  let r : Byte := (v <<< 1) ||| (BitVec.ofBool f.c).setWidth 8
  (r, { f with c := v.getLsbD 7 }.setNZ r)

/-- The result and the flags of ROR (R143): the old C comes in at bit 7. -/
def rorResult (v : Byte) (f : Flags) : Byte × Flags :=
  let r : Byte := (v >>> 1) ||| (BitVec.ofBool f.c).setWidth 8 <<< 7
  (r, { f with c := v.getLsbD 0 }.setNZ r)

/-- The result and the flags of INC (R173): C and V are not written. -/
def incResult (v : Byte) (f : Flags) : Byte × Flags := (v + 1, f.setNZ (v + 1))

/-- The result and the flags of DEC (R170): C and V are not written. -/
def decResult (v : Byte) (f : Flags) : Byte × Flags := (v - 1, f.setNZ (v - 1))

end Sys2Proof.Machine
end

