-- ==== Sys2Proof/Machine/Ops.lean ====
section
/-! DEFINITION. The named operations over memory, the stack, the program counter and the exceptions (spec 20_memory.md
R51 to R66, 49_system.md R215, R216, 60_exceptions.md R224 to R231, 70_reset_and_hazards.md R250). -/

namespace Sys2Proof.Machine

/-- The first region that holds the address gives its kind; an address in none is RAM (log 6). -/
def kindIn : List Region → Nat → MemKind
  | [], _ => .ram
  | r :: rs, a => if r.base ≤ a ∧ a < r.base + r.size then r.kind else kindIn rs a

/-- The cell that an address reaches: under `STACK_IN_PAGE_ZERO`, AB8 is ignored in pages 0 and 1 (R66, log 19). -/
def cellOf (p : Params) (addr : Word) : Nat :=
  if p.stackInPageZero && decide (addr.toNat < 0x200) then addr.toNat % 0x100 else addr.toNat

/-- What stands at an address (R51). -/
def kindAt (p : Params) (addr : Word) : MemKind := kindIn p.memMap (cellOf p addr)

/-- `MemRead(addr, 1)` (R51, R52), in the role `use`: RAM and ROM give their contents, I/O and unpopulated addresses a
free value (log 12). -/
def State.readByte (s : State) (use : Access) (addr : Word) : Byte :=
  match kindAt s.params addr with
  | .ram => s.mem.read (cellOf s.params addr)
  | .rom => s.mem.read (cellOf s.params addr)
  | .io => Config.deviceByte s.turn use addr
  | .unpopulated => Config.deviceByte s.turn use addr

/-- `MemWrite(addr, 1, v)` (R51, R52): RAM stores the byte, ROM ignores it, elsewhere it is an output event (log 12). -/
def State.writeByte (s : State) (addr : Word) (v : Byte) : State :=
  match kindAt s.params addr with
  | .ram => { s with mem := s.mem.write (cellOf s.params addr) v }
  | .rom => s
  | .io => { s with outputs := (addr.toNat, v) :: s.outputs }
  | .unpopulated => { s with outputs := (addr.toNat, v) :: s.outputs }

/-- `PC <- nextPC` of an instruction of `len` bytes, mod 65536 (R23, log 17). -/
def State.advance (s : State) (len : Nat) : State := { s with pc := s.pc + BitVec.ofNat 16 len }

/-- `0x0100 + S` for an offset S (R59). -/
def stackAddress (offset : Byte) : Word := 0x0100#16 + zeroExtend16 offset

/-- `push8(v)` (R60): the store, then S one down, mod 256 (R64). -/
def State.push8 (s : State) (v : Byte) : State :=
  { s.writeByte (stackAddress s.sp) v with sp := s.sp - 1 }

/-- The byte that `pull8()` returns (R61): the one above the free location, S + 1 mod 256 (R64). -/
def State.pulledByte (s : State) : Byte := s.readByte .stack (stackAddress (s.sp + 1))

/-- The state after `pull8()` (R61). -/
def State.pull8 (s : State) : State := { s with sp := s.sp + 1 }

/-- `push16(w)` (R62): the high byte is pushed first. -/
def State.push16 (s : State) (w : Word) : State := (s.push8 (highByte w)).push8 (lowByte w)

/-- The word that `pull16()` returns (R63): the low byte is pulled first. -/
def State.pulledWord (s : State) : Word := joinBytes s.pull8.pulledByte s.pulledByte

/-- The state after `pull16()` (R63). -/
def State.pull16 (s : State) : State := s.pull8.pull8

/-- The NMI vector (R57). -/
def nmiVector : Word := 0xFFFA#16

/-- The RES vector (R57). -/
def resVector : Word := 0xFFFC#16

/-- The vector of IRQ and BRK (R57). -/
def irqVector : Word := 0xFFFE#16

/-- `MemRead16(vector)` (R54, R57). -/
def State.readVector (s : State) (vector : Word) : Word :=
  joinBytes (s.readByte .vectorHigh (vector + 1)) (s.readByte .vectorLow vector)

/-- TAKING AN EXCEPTION (R229, R215): push `ret`, push P with bit 4 = `b`, then I = 1 and PC from the vector. -/
def State.takeException (s : State) (b : Bool) (ret : Word) (vector : Word) : State :=
  let pushed := (s.push16 ret).push8 (s.p.pByte b)
  { pushed with p := { s.p with i := true }, pc := pushed.readVector vector }

/-- RETURNING FROM ONE (R216, R233): pull P, then PC. -/
def State.returnFromException (s : State) : State :=
  let afterP := s.pull8
  { afterP.pull16 with p := flagsOfByte s.pulledByte, pc := afterP.pulledWord }

/-- The entry sequence of NMI (R225, R229): the latch is cleared. -/
def State.enterNmi (s : State) : State :=
  { s.takeException false s.pc nmiVector with nmiPending := false }

/-- The entry sequence of IRQ (R224, R229). -/
def State.enterIrq (s : State) : State := s.takeException false s.pc irqVector

/-- The reset sequence (R250) in a running machine: I = 1, no NMI pending, PC from the RES vector, memory as it was; what
R40 leaves unspecified becomes a free value (log 3, safe). -/
def State.enterReset (s : State) : State :=
  { s with
    a := Config.freeByte s.turn .resetA
    x := Config.freeByte s.turn .resetX
    y := Config.freeByte s.turn .resetY
    sp := Config.freeByte s.turn .resetS
    p :=
      { n := Config.freeBit s.turn .resetN
        v := Config.freeBit s.turn .resetV
        d := Config.freeBit s.turn .resetD
        i := true
        z := Config.freeBit s.turn .resetZ
        c := Config.freeBit s.turn .resetC }
    nmiPending := false
    pc := s.readVector resVector }

/-- What the next boundary sees of the lines (R228); past the listed samples no line is asserted (log 13). -/
def State.lines (s : State) : LineSample :=
  match s.inputs with
  | [] => { res := false, nmiFell := false, irqLow := false }
  | l :: _ => l

/-- The boundary itself (R228): the sample is used up, a falling NMI edge is latched (R38), a new turn begins for the free
values, and V is any value if the platform drives S.O. (D19, log 18). -/
def State.atBoundary (s : State) : State :=
  { s with
    inputs := s.inputs.tail
    nmiPending := s.nmiPending || s.lines.nmiFell
    turn := s.turn + 1
    p := if s.params.soPinUsed then { s.p with v := Config.freeBit (s.turn + 1) .soPinV } else s.p }

/-- What a boundary leads to. -/
inductive Event where
  | reset
  | nmi
  | irq
  | instruction
deriving DecidableEq, Repr

/-- The evaluation at a boundary, in the order RES, NMI, IRQ (R227, R228); I is as the last instruction left it (D15, D27,
log 14). -/
def State.event (s : State) : Event :=
  if s.lines.res then .reset
  else if s.nmiPending || s.lines.nmiFell then .nmi
  else if s.lines.irqLow && !s.p.i then .irq
  else .instruction

/-- Add to the cycle observer (R264). -/
def State.spend (s : State) (k : Nat) : State := { s with cycles := s.cycles + k }

/-- Add to the cycle observer of the state that an outcome goes on to. -/
def spendOn (k : Nat) : Host.Outcome State Fault Refusal → Host.Outcome State Fault Refusal
  | .next s => .next (s.spend k)
  | .fault r => .fault r
  | .refused r => .refused r

/-- Instruction fetch (R75): the opcode byte, then as many operand bytes as it asks for; an undefined byte is refused
(R97). -/
def State.fetch (s : State) : Except Refusal Instr :=
  let op := s.readByte .opcode s.pc
  match opcodeShape op with
  | none => .error (.undefinedOpcode op)
  | some shape =>
    .ok (shape.complete (s.readByte .operandLow (s.pc + 1)) (s.readByte .operandHigh (s.pc + 2)))

/-- Bytes put into the cells of consecutive addresses, whatever stands there: how a program is loaded from outside. -/
def placeBytes (p : Params) : Word → List Byte → Memory → Memory
  | _, [], m => m
  | addr, b :: bs, m => placeBytes p (addr + 1) bs (m.write (cellOf p addr) b)

end Sys2Proof.Machine
end

