-- ==== Sys2Proof/Machine/Operands.lean ====
section
/-! DEFINITION. The addressing forms (spec 30_encoding.md R84 to R94, R104, R105) and the ways in which instructions use
them: read an operand, store, read and write back, branch. -/

namespace Sys2Proof.Machine

/-- `0x0000 + n`, an address in page 0 (R87). -/
def zeroPage (n : Byte) : Word := zeroExtend16 n

/-- The address held by page 0 at `ptr` and the next location (R88, R89), low byte first (R54). A pointer at 0xFF would
leave page 0: `ZP_PTR_CROSS` says what then (D9). -/
def zeroPagePointer (ptr : Byte) (s : State) : Except Refusal Word :=
  if ptr = 0xFF#8 then
    match s.params.zpPtrCross with
    | .refuse => .error .zeroPagePointerCross
    | .wrap => .ok (joinBytes (s.readByte .pointerHigh 0x0000#16) (s.readByte .pointerLow 0x00FF#16))
  else
    .ok (joinBytes (s.readByte .pointerHigh (zeroPage ptr + 1)) (s.readByte .pointerLow (zeroPage ptr)))

/-- The effective address of a form: zero-page sums stay in page 0, the others are mod 65536 (R87 to R94, log 17). -/
def effectiveAddress (m : MemForm) (s : State) : Except Refusal Word :=
  match m with
  | .zp n => .ok (zeroPage n)
  | .zpx n => .ok (zeroPage (n + s.x))
  | .zpy n => .ok (zeroPage (n + s.y))
  | .abs nn => .ok nn
  | .abx nn => .ok (nn + zeroExtend16 s.x)
  | .aby nn => .ok (nn + zeroExtend16 s.y)
  | .inx n => zeroPagePointer (n + s.x) s
  | .iny n =>
    match zeroPagePointer n s with
    | .ok base => .ok (base + zeroExtend16 s.y)
    | .error r => .error r

/-- "DATA", the operand byte (R83, R86). -/
def operandByte (src : Source) (s : State) : Except Refusal Byte :=
  match src with
  | .imm n => .ok n
  | .mem m =>
    match effectiveAddress m s with
    | .ok ea => .ok (s.readByte .data ea)
    | .error r => .error r

/-- Write X, with N and Z from the byte (R30). -/
def State.setX (s : State) (v : Byte) : State := { s with x := v, p := s.p.setNZ v }

/-- Write Y, with N and Z from the byte (R30). -/
def State.setY (s : State) (v : Byte) : State := { s with y := v, p := s.p.setNZ v }

/-- Write A, with N and Z from the byte (R30). -/
def State.setA (s : State) (v : Byte) : State := { s with a := v, p := s.p.setNZ v }

/-- An instruction that reads an operand and changes registers and flags only. -/
def withOperand (src : Source) (f : Byte → State → State) (s : State) : Host.Outcome State Fault Refusal :=
  match operandByte src s with
  | .ok d => .next ((f d s).advance src.length)
  | .error r => .refused r

/-- A store of `v` at the effective address (R193 to R195). -/
def storeAt (m : MemForm) (v : Byte) (s : State) : Host.Outcome State Fault Refusal :=
  match effectiveAddress m s with
  | .ok ea => .next ((s.writeByte ea v).advance (Source.mem m).length)
  | .error r => .refused r

/-- The memory form of a shift, rotate, INC or DEC (R144): read, then write to the same address, flags from the result. -/
def modifyAt (m : MemForm) (f : Byte → Flags → Byte × Flags) (s : State) : Host.Outcome State Fault Refusal :=
  match effectiveAddress m s with
  | .ok ea =>
    let result := f (s.readByte .data ea) s.p
    .next ({ s.writeByte ea result.1 with p := result.2 }.advance (Source.mem m).length)
  | .error r => .refused r

/-- The Accumulator form of a shift or rotate (R85, R144). -/
def modifyA (f : Byte → Flags → Byte × Flags) (s : State) : Host.Outcome State Fault Refusal :=
  let result := f s.a s.p
  .next ({ s with a := result.1, p := result.2 }.advance 1)

/-- An instruction without operand that changes registers and flags only (R84). -/
def implied (f : State → State) (s : State) : Host.Outcome State Fault Refusal := .next ((f s).advance 1)

/-- `target` of the Relative form (R105): the displacement counts from the next instruction, mod 65536 (log 17). -/
def branchTarget (n : Byte) (s : State) : Word := s.pc + 2 + signExtend16 n

/-- The common branch rule (R150). -/
def branchIf (cond : Bool) (n : Byte) (s : State) : Host.Outcome State Fault Refusal :=
  .next { s with pc := if cond then branchTarget n s else s.pc + 2 }

/-- The target of the Indirect form (R104, R181), low byte first; `JMP_IND_CROSS` says where the high byte lies when nn is
the last byte of its page (D10). -/
def indirectTarget (nn : Word) (s : State) : Except Refusal Word :=
  if lowByte nn = 0xFF#8 then
    match s.params.jmpIndCross with
    | .refuse => .error .jmpIndirectCross
    | .linear => .ok (joinBytes (s.readByte .pointerHigh (nn + 1)) (s.readByte .pointerLow nn))
    | .pageWrap =>
      .ok (joinBytes (s.readByte .pointerHigh (joinBytes (highByte nn) 0x00#8)) (s.readByte .pointerLow nn))
  else
    .ok (joinBytes (s.readByte .pointerHigh (nn + 1)) (s.readByte .pointerLow nn))

/-- An instruction that only some parts have: the others refuse its opcode as undefined (R8, D2). -/
def ifPresent (present : Bool) (op : Byte) (outcome : Host.Outcome State Fault Refusal) :
    Host.Outcome State Fault Refusal :=
  if present then outcome else .refused (.undefinedOpcode op)

end Sys2Proof.Machine
end

