-- ==== Sys2Proof/Machine/Arithmetic.lean ====
section
/-! DEFINITION. ADC, SBC, CMP, CPX, CPY (spec 40_arithmetic.md R120 to R126). -/

namespace Sys2Proof.Machine

/-- A and the flags after a decimal ADC or SBC: N, V and Z are any value (R122, log 10). -/
def State.withDecimal (s : State) (value : Byte) (carry : Bool) : State :=
  { s with
    a := value
    p :=
      { s.p with
        n := Config.freeBit s.turn .decimalN
        v := Config.freeBit s.turn .decimalV
        z := Config.freeBit s.turn .decimalZ
        c := carry } }

/-- Decimal ADC or SBC with the given BCD result and carry (R122), which refuses operands that are not BCD (D4, R12). -/
def decimalOutcome (d value : Byte) (carry : Bool) (s : State) : Except Refusal State :=
  match s.params.decimalMode with
  | .refuse => .error .decimalRefused
  | .bcdValidOnly =>
    if isBcd s.a && isBcd d then .ok (s.withDecimal value carry) else .error .decimalInvalidBcd

/-- Binary ADC of an operand byte (R120). -/
def addBinary (d : Byte) (s : State) : State :=
  { s with
    a := addResult s.a d s.p.c
    p := { s.p with c := addCarry s.a d s.p.c, v := addOverflow s.a d s.p.c }.setNZ (addResult s.a d s.p.c) }

/-- Binary SBC of an operand byte (R121). -/
def subBinary (d : Byte) (s : State) : State :=
  { s with
    a := subResult s.a d s.p.c
    p := { s.p with c := subCarry s.a d s.p.c, v := subOverflow s.a d s.p.c }.setNZ (subResult s.a d s.p.c) }

/-- ADC of an operand byte, before the pc moves on (R120, R122). -/
def addOperand (d : Byte) (s : State) : Except Refusal State :=
  if s.p.d then decimalOutcome d (decimalAddResult s.a d s.p.c) (decimalAddCarry s.a d s.p.c) s
  else .ok (addBinary d s)

/-- SBC of an operand byte, before the pc moves on (R121, R122). -/
def subOperand (d : Byte) (s : State) : Except Refusal State :=
  if s.p.d then decimalOutcome d (decimalSubResult s.a d s.p.c) (decimalSubCarry s.a d s.p.c) s
  else .ok (subBinary d s)

/-- ADC or SBC: read the operand, compute, move on. DESIGN CHOICE (log 9), safe: where the pointer of the form (R88, R89)
and the decimal arithmetic (R122) are both refused, the refusal reported is the pointer's; the spec gives no order. -/
def arithmeticOn (src : Source) (f : Byte → State → Except Refusal State) (s : State) :
    Host.Outcome State Fault Refusal :=
  match operandByte src s with
  | .error r => .refused r
  | .ok d =>
    match f d s with
    | .error r => .refused r
    | .ok s' => .next (s'.advance src.length)

/-- CMP, CPX, CPY: compare a register with the operand (R123 to R125). -/
def compareWith (reg : Byte) (src : Source) (s : State) : Host.Outcome State Fault Refusal :=
  withOperand src (fun d s => { s with p := s.p.compare reg d }) s

/-- `ADC #n`, opcode 69 (R120): A + DATA + C to A. -/
def execAdcImm (n : Byte) (s : State) : Host.Outcome State Fault Refusal :=
  arithmeticOn (.imm n) addOperand s

/-- `ADC n`, opcode 65 (R120): A + DATA + C to A. -/
def execAdcZp (n : Byte) (s : State) : Host.Outcome State Fault Refusal :=
  arithmeticOn (.mem (.zp n)) addOperand s

/-- `ADC n,X`, opcode 75 (R120): A + DATA + C to A. -/
def execAdcZpx (n : Byte) (s : State) : Host.Outcome State Fault Refusal :=
  arithmeticOn (.mem (.zpx n)) addOperand s

/-- `ADC nn`, opcode 6D (R120): A + DATA + C to A. -/
def execAdcAbs (nn : Word) (s : State) : Host.Outcome State Fault Refusal :=
  arithmeticOn (.mem (.abs nn)) addOperand s

/-- `ADC nn,X`, opcode 7D (R120): A + DATA + C to A. -/
def execAdcAbx (nn : Word) (s : State) : Host.Outcome State Fault Refusal :=
  arithmeticOn (.mem (.abx nn)) addOperand s

/-- `ADC nn,Y`, opcode 79 (R120): A + DATA + C to A. -/
def execAdcAby (nn : Word) (s : State) : Host.Outcome State Fault Refusal :=
  arithmeticOn (.mem (.aby nn)) addOperand s

/-- `ADC (n,X)`, opcode 61 (R120): A + DATA + C to A. -/
def execAdcInx (n : Byte) (s : State) : Host.Outcome State Fault Refusal :=
  arithmeticOn (.mem (.inx n)) addOperand s

/-- `ADC (n),Y`, opcode 71 (R120): A + DATA + C to A. -/
def execAdcIny (n : Byte) (s : State) : Host.Outcome State Fault Refusal :=
  arithmeticOn (.mem (.iny n)) addOperand s

/-- `SBC #n`, opcode E9 (R121): A - DATA - (1 - C) to A. -/
def execSbcImm (n : Byte) (s : State) : Host.Outcome State Fault Refusal :=
  arithmeticOn (.imm n) subOperand s

/-- `SBC n`, opcode E5 (R121): A - DATA - (1 - C) to A. -/
def execSbcZp (n : Byte) (s : State) : Host.Outcome State Fault Refusal :=
  arithmeticOn (.mem (.zp n)) subOperand s

/-- `SBC n,X`, opcode F5 (R121): A - DATA - (1 - C) to A. -/
def execSbcZpx (n : Byte) (s : State) : Host.Outcome State Fault Refusal :=
  arithmeticOn (.mem (.zpx n)) subOperand s

/-- `SBC nn`, opcode ED (R121): A - DATA - (1 - C) to A. -/
def execSbcAbs (nn : Word) (s : State) : Host.Outcome State Fault Refusal :=
  arithmeticOn (.mem (.abs nn)) subOperand s

/-- `SBC nn,X`, opcode FD (R121): A - DATA - (1 - C) to A. -/
def execSbcAbx (nn : Word) (s : State) : Host.Outcome State Fault Refusal :=
  arithmeticOn (.mem (.abx nn)) subOperand s

/-- `SBC nn,Y`, opcode F9 (R121): A - DATA - (1 - C) to A. -/
def execSbcAby (nn : Word) (s : State) : Host.Outcome State Fault Refusal :=
  arithmeticOn (.mem (.aby nn)) subOperand s

/-- `SBC (n,X)`, opcode E1 (R121): A - DATA - (1 - C) to A. -/
def execSbcInx (n : Byte) (s : State) : Host.Outcome State Fault Refusal :=
  arithmeticOn (.mem (.inx n)) subOperand s

/-- `SBC (n),Y`, opcode F1 (R121): A - DATA - (1 - C) to A. -/
def execSbcIny (n : Byte) (s : State) : Host.Outcome State Fault Refusal :=
  arithmeticOn (.mem (.iny n)) subOperand s

/-- `CMP #n`, opcode C9 (R123): compare A with DATA. -/
def execCmpImm (n : Byte) (s : State) : Host.Outcome State Fault Refusal :=
  compareWith s.a (.imm n) s

/-- `CMP n`, opcode C5 (R123): compare A with DATA. -/
def execCmpZp (n : Byte) (s : State) : Host.Outcome State Fault Refusal :=
  compareWith s.a (.mem (.zp n)) s

/-- `CMP n,X`, opcode D5 (R123): compare A with DATA. -/
def execCmpZpx (n : Byte) (s : State) : Host.Outcome State Fault Refusal :=
  compareWith s.a (.mem (.zpx n)) s

/-- `CMP nn`, opcode CD (R123): compare A with DATA. -/
def execCmpAbs (nn : Word) (s : State) : Host.Outcome State Fault Refusal :=
  compareWith s.a (.mem (.abs nn)) s

/-- `CMP nn,X`, opcode DD (R123): compare A with DATA. -/
def execCmpAbx (nn : Word) (s : State) : Host.Outcome State Fault Refusal :=
  compareWith s.a (.mem (.abx nn)) s

/-- `CMP nn,Y`, opcode D9 (R123): compare A with DATA. -/
def execCmpAby (nn : Word) (s : State) : Host.Outcome State Fault Refusal :=
  compareWith s.a (.mem (.aby nn)) s

/-- `CMP (n,X)`, opcode C1 (R123): compare A with DATA. -/
def execCmpInx (n : Byte) (s : State) : Host.Outcome State Fault Refusal :=
  compareWith s.a (.mem (.inx n)) s

/-- `CMP (n),Y`, opcode D1 (R123): compare A with DATA. -/
def execCmpIny (n : Byte) (s : State) : Host.Outcome State Fault Refusal :=
  compareWith s.a (.mem (.iny n)) s

/-- `CPX #n`, opcode E0 (R124): compare X with DATA. -/
def execCpxImm (n : Byte) (s : State) : Host.Outcome State Fault Refusal :=
  compareWith s.x (.imm n) s

/-- `CPX n`, opcode E4 (R124): compare X with DATA. -/
def execCpxZp (n : Byte) (s : State) : Host.Outcome State Fault Refusal :=
  compareWith s.x (.mem (.zp n)) s

/-- `CPX nn`, opcode EC (R124): compare X with DATA. -/
def execCpxAbs (nn : Word) (s : State) : Host.Outcome State Fault Refusal :=
  compareWith s.x (.mem (.abs nn)) s

/-- `CPY #n`, opcode C0 (R125): compare Y with DATA. -/
def execCpyImm (n : Byte) (s : State) : Host.Outcome State Fault Refusal :=
  compareWith s.y (.imm n) s

/-- `CPY n`, opcode C4 (R125): compare Y with DATA. -/
def execCpyZp (n : Byte) (s : State) : Host.Outcome State Fault Refusal :=
  compareWith s.y (.mem (.zp n)) s

/-- `CPY nn`, opcode CC (R125): compare Y with DATA. -/
def execCpyAbs (nn : Word) (s : State) : Host.Outcome State Fault Refusal :=
  compareWith s.y (.mem (.abs nn)) s

end Sys2Proof.Machine
end

