-- ==== Sys2Proof/Machine/Branch.lean ====
section
/-! DEFINITION. The eight conditional branches (spec 43_branch.md R150 to R158). -/

namespace Sys2Proof.Machine

/-- `BCC n`, opcode 90 (R151): branch if C = 0. -/
def execBcc (n : Byte) (s : State) : Host.Outcome State Fault Refusal :=
  branchIf (!s.p.c) n s

/-- `BCS n`, opcode B0 (R152): branch if C = 1. -/
def execBcs (n : Byte) (s : State) : Host.Outcome State Fault Refusal :=
  branchIf s.p.c n s

/-- `BEQ n`, opcode F0 (R153): branch if Z = 1. -/
def execBeq (n : Byte) (s : State) : Host.Outcome State Fault Refusal :=
  branchIf s.p.z n s

/-- `BNE n`, opcode D0 (R154): branch if Z = 0. -/
def execBne (n : Byte) (s : State) : Host.Outcome State Fault Refusal :=
  branchIf (!s.p.z) n s

/-- `BMI n`, opcode 30 (R155): branch if N = 1. -/
def execBmi (n : Byte) (s : State) : Host.Outcome State Fault Refusal :=
  branchIf s.p.n n s

/-- `BPL n`, opcode 10 (R156): branch if N = 0. -/
def execBpl (n : Byte) (s : State) : Host.Outcome State Fault Refusal :=
  branchIf (!s.p.n) n s

/-- `BVC n`, opcode 50 (R157): branch if V = 0. -/
def execBvc (n : Byte) (s : State) : Host.Outcome State Fault Refusal :=
  branchIf (!s.p.v) n s

/-- `BVS n`, opcode 70 (R158): branch if V = 1. -/
def execBvs (n : Byte) (s : State) : Host.Outcome State Fault Refusal :=
  branchIf s.p.v n s

end Sys2Proof.Machine
end

