-- ==== Sys2Proof/Machine/FlagInstructions.lean ====
section
/-! DEFINITION. CLC, CLD, CLI, CLV, SEC, SED, SEI (spec 44_flag.md R160 to R166). -/

namespace Sys2Proof.Machine

/-- `CLC`, opcode 18 (R160): C takes 0. -/
def execClc (s : State) : Host.Outcome State Fault Refusal :=
  implied (fun s => { s with p := { s.p with c := false } }) s

/-- `CLD`, opcode D8 (R161): D takes 0. -/
def execCld (s : State) : Host.Outcome State Fault Refusal :=
  implied (fun s => { s with p := { s.p with d := false } }) s

/-- `CLI`, opcode 58 (R162): I takes 0. -/
def execCli (s : State) : Host.Outcome State Fault Refusal :=
  implied (fun s => { s with p := { s.p with i := false } }) s

/-- `CLV`, opcode B8 (R163): V takes 0. -/
def execClv (s : State) : Host.Outcome State Fault Refusal :=
  implied (fun s => { s with p := { s.p with v := false } }) s

/-- `SEC`, opcode 38 (R164): C takes 1. -/
def execSec (s : State) : Host.Outcome State Fault Refusal :=
  implied (fun s => { s with p := { s.p with c := true } }) s

/-- `SED`, opcode F8 (R165): D takes 1. -/
def execSed (s : State) : Host.Outcome State Fault Refusal :=
  implied (fun s => { s with p := { s.p with d := true } }) s

/-- `SEI`, opcode 78 (R166): I takes 1. -/
def execSei (s : State) : Host.Outcome State Fault Refusal :=
  implied (fun s => { s with p := { s.p with i := true } }) s

end Sys2Proof.Machine
end

