-- ==== Sys2Proof/Machine/IncDec.lean ====
section
/-! DEFINITION. DEC, DEX, DEY, INC, INX, INY (spec 45_incdec.md R170 to R175). -/

namespace Sys2Proof.Machine

/-- `DEC n`, opcode C6 (R170): memory minus one. -/
def execDecZp (n : Byte) (s : State) : Host.Outcome State Fault Refusal :=
  modifyAt (.zp n) decResult s

/-- `DEC n,X`, opcode D6 (R170): memory minus one. -/
def execDecZpx (n : Byte) (s : State) : Host.Outcome State Fault Refusal :=
  modifyAt (.zpx n) decResult s

/-- `DEC nn`, opcode CE (R170): memory minus one. -/
def execDecAbs (nn : Word) (s : State) : Host.Outcome State Fault Refusal :=
  modifyAt (.abs nn) decResult s

/-- `DEC nn,X`, opcode DE (R170): memory minus one. -/
def execDecAbx (nn : Word) (s : State) : Host.Outcome State Fault Refusal :=
  modifyAt (.abx nn) decResult s

/-- `DEX`, opcode CA (R171): X minus one. -/
def execDex (s : State) : Host.Outcome State Fault Refusal :=
  implied (fun s => s.setX (s.x - 1)) s

/-- `DEY`, opcode 88 (R172): Y minus one. -/
def execDey (s : State) : Host.Outcome State Fault Refusal :=
  implied (fun s => s.setY (s.y - 1)) s

/-- `INC n`, opcode E6 (R173): memory plus one. -/
def execIncZp (n : Byte) (s : State) : Host.Outcome State Fault Refusal :=
  modifyAt (.zp n) incResult s

/-- `INC n,X`, opcode F6 (R173): memory plus one. -/
def execIncZpx (n : Byte) (s : State) : Host.Outcome State Fault Refusal :=
  modifyAt (.zpx n) incResult s

/-- `INC nn`, opcode EE (R173): memory plus one. -/
def execIncAbs (nn : Word) (s : State) : Host.Outcome State Fault Refusal :=
  modifyAt (.abs nn) incResult s

/-- `INC nn,X`, opcode FE (R173): memory plus one. -/
def execIncAbx (nn : Word) (s : State) : Host.Outcome State Fault Refusal :=
  modifyAt (.abx nn) incResult s

/-- `INX`, opcode E8 (R174): X plus one. -/
def execInx (s : State) : Host.Outcome State Fault Refusal :=
  implied (fun s => s.setX (s.x + 1)) s

/-- `INY`, opcode C8 (R175): Y plus one. -/
def execIny (s : State) : Host.Outcome State Fault Refusal :=
  implied (fun s => s.setY (s.y + 1)) s

end Sys2Proof.Machine
end

