-- ==== Sys2Proof/Machine/JumpSubroutine.lean ====
section
/-! DEFINITION. JMP, JSR, RTS (spec 46_jump_subroutine.md R180 to R183). -/

namespace Sys2Proof.Machine

/-- `JMP nn`, opcode 4C (R180): jump. -/
def execJmpAbs (nn : Word) (s : State) : Host.Outcome State Fault Refusal :=
  .next { s with pc := nn }

/-- `JMP (nn)`, opcode 6C (R181): jump. -/
def execJmpInd (nn : Word) (s : State) : Host.Outcome State Fault Refusal :=
  match indirectTarget nn s with
  | .ok target => .next { s with pc := target }
  | .error r => .refused r

/-- `JSR nn`, opcode 20 (R182): push the return address less 1, jump. -/
def execJsr (nn : Word) (s : State) : Host.Outcome State Fault Refusal :=
  .next { s.push16 (s.pc + 2) with pc := nn }

/-- `RTS`, opcode 60 (R183): pull PC, add 1. -/
def execRts (s : State) : Host.Outcome State Fault Refusal :=
  .next { s.pull16 with pc := s.pulledWord + 1 }

end Sys2Proof.Machine
end

