-- ==== Sys2Proof/Machine/LoadStore.lean ====
section
/-! DEFINITION. LDA, LDX, LDY, STA, STX, STY (spec 47_load_store.md R190 to R195). -/

namespace Sys2Proof.Machine

/-- `LDA #n`, opcode A9 (R190): DATA to A. -/
def execLdaImm (n : Byte) (s : State) : Host.Outcome State Fault Refusal :=
  withOperand (.imm n) (fun d s => s.setA d) s

/-- `LDA n`, opcode A5 (R190): DATA to A. -/
def execLdaZp (n : Byte) (s : State) : Host.Outcome State Fault Refusal :=
  withOperand (.mem (.zp n)) (fun d s => s.setA d) s

/-- `LDA n,X`, opcode B5 (R190): DATA to A. -/
def execLdaZpx (n : Byte) (s : State) : Host.Outcome State Fault Refusal :=
  withOperand (.mem (.zpx n)) (fun d s => s.setA d) s

/-- `LDA nn`, opcode AD (R190): DATA to A. -/
def execLdaAbs (nn : Word) (s : State) : Host.Outcome State Fault Refusal :=
  withOperand (.mem (.abs nn)) (fun d s => s.setA d) s

/-- `LDA nn,X`, opcode BD (R190): DATA to A. -/
def execLdaAbx (nn : Word) (s : State) : Host.Outcome State Fault Refusal :=
  withOperand (.mem (.abx nn)) (fun d s => s.setA d) s

/-- `LDA nn,Y`, opcode B9 (R190): DATA to A. -/
def execLdaAby (nn : Word) (s : State) : Host.Outcome State Fault Refusal :=
  withOperand (.mem (.aby nn)) (fun d s => s.setA d) s

/-- `LDA (n,X)`, opcode A1 (R190): DATA to A. -/
def execLdaInx (n : Byte) (s : State) : Host.Outcome State Fault Refusal :=
  withOperand (.mem (.inx n)) (fun d s => s.setA d) s

/-- `LDA (n),Y`, opcode B1 (R190): DATA to A. -/
def execLdaIny (n : Byte) (s : State) : Host.Outcome State Fault Refusal :=
  withOperand (.mem (.iny n)) (fun d s => s.setA d) s

/-- `LDX #n`, opcode A2 (R191): DATA to X. -/
def execLdxImm (n : Byte) (s : State) : Host.Outcome State Fault Refusal :=
  withOperand (.imm n) (fun d s => s.setX d) s

/-- `LDX n`, opcode A6 (R191): DATA to X. -/
def execLdxZp (n : Byte) (s : State) : Host.Outcome State Fault Refusal :=
  withOperand (.mem (.zp n)) (fun d s => s.setX d) s

/-- `LDX n,Y`, opcode B6 (R191): DATA to X. -/
def execLdxZpy (n : Byte) (s : State) : Host.Outcome State Fault Refusal :=
  withOperand (.mem (.zpy n)) (fun d s => s.setX d) s

/-- `LDX nn`, opcode AE (R191): DATA to X. -/
def execLdxAbs (nn : Word) (s : State) : Host.Outcome State Fault Refusal :=
  withOperand (.mem (.abs nn)) (fun d s => s.setX d) s

/-- `LDX nn,Y`, opcode BE (R191): DATA to X. -/
def execLdxAby (nn : Word) (s : State) : Host.Outcome State Fault Refusal :=
  withOperand (.mem (.aby nn)) (fun d s => s.setX d) s

/-- `LDY #n`, opcode A0 (R192): DATA to Y. -/
def execLdyImm (n : Byte) (s : State) : Host.Outcome State Fault Refusal :=
  withOperand (.imm n) (fun d s => s.setY d) s

/-- `LDY n`, opcode A4 (R192): DATA to Y. -/
def execLdyZp (n : Byte) (s : State) : Host.Outcome State Fault Refusal :=
  withOperand (.mem (.zp n)) (fun d s => s.setY d) s

/-- `LDY n,X`, opcode B4 (R192): DATA to Y. -/
def execLdyZpx (n : Byte) (s : State) : Host.Outcome State Fault Refusal :=
  withOperand (.mem (.zpx n)) (fun d s => s.setY d) s

/-- `LDY nn`, opcode AC (R192): DATA to Y. -/
def execLdyAbs (nn : Word) (s : State) : Host.Outcome State Fault Refusal :=
  withOperand (.mem (.abs nn)) (fun d s => s.setY d) s

/-- `LDY nn,X`, opcode BC (R192): DATA to Y. -/
def execLdyAbx (nn : Word) (s : State) : Host.Outcome State Fault Refusal :=
  withOperand (.mem (.abx nn)) (fun d s => s.setY d) s

/-- `STA n`, opcode 85 (R193): A to memory. -/
def execStaZp (n : Byte) (s : State) : Host.Outcome State Fault Refusal :=
  storeAt (.zp n) s.a s

/-- `STA n,X`, opcode 95 (R193): A to memory. -/
def execStaZpx (n : Byte) (s : State) : Host.Outcome State Fault Refusal :=
  storeAt (.zpx n) s.a s

/-- `STA nn`, opcode 8D (R193): A to memory. -/
def execStaAbs (nn : Word) (s : State) : Host.Outcome State Fault Refusal :=
  storeAt (.abs nn) s.a s

/-- `STA nn,X`, opcode 9D (R193): A to memory. -/
def execStaAbx (nn : Word) (s : State) : Host.Outcome State Fault Refusal :=
  storeAt (.abx nn) s.a s

/-- `STA nn,Y`, opcode 99 (R193): A to memory. -/
def execStaAby (nn : Word) (s : State) : Host.Outcome State Fault Refusal :=
  storeAt (.aby nn) s.a s

/-- `STA (n,X)`, opcode 81 (R193): A to memory. -/
def execStaInx (n : Byte) (s : State) : Host.Outcome State Fault Refusal :=
  storeAt (.inx n) s.a s

/-- `STA (n),Y`, opcode 91 (R193): A to memory. -/
def execStaIny (n : Byte) (s : State) : Host.Outcome State Fault Refusal :=
  storeAt (.iny n) s.a s

/-- `STX n`, opcode 86 (R194): X to memory. -/
def execStxZp (n : Byte) (s : State) : Host.Outcome State Fault Refusal :=
  storeAt (.zp n) s.x s

/-- `STX n,Y`, opcode 96 (R194): X to memory. -/
def execStxZpy (n : Byte) (s : State) : Host.Outcome State Fault Refusal :=
  storeAt (.zpy n) s.x s

/-- `STX nn`, opcode 8E (R194): X to memory. -/
def execStxAbs (nn : Word) (s : State) : Host.Outcome State Fault Refusal :=
  storeAt (.abs nn) s.x s

/-- `STY n`, opcode 84 (R195): Y to memory. -/
def execStyZp (n : Byte) (s : State) : Host.Outcome State Fault Refusal :=
  storeAt (.zp n) s.y s

/-- `STY n,X`, opcode 94 (R195): Y to memory. -/
def execStyZpx (n : Byte) (s : State) : Host.Outcome State Fault Refusal :=
  storeAt (.zpx n) s.y s

/-- `STY nn`, opcode 8C (R195): Y to memory. -/
def execStyAbs (nn : Word) (s : State) : Host.Outcome State Fault Refusal :=
  storeAt (.abs nn) s.y s

end Sys2Proof.Machine
end

