-- ==== Sys2Proof/Machine/Logic.lean ====
section
/-! DEFINITION. AND, EOR, ORA, BIT (spec 41_logic.md R130 to R133). -/

namespace Sys2Proof.Machine

/-- AND, EOR, ORA: a bitwise operation into A, N and Z from the result (R130 to R132). -/
def logicOn (op : Byte → Byte → Byte) (src : Source) (s : State) : Host.Outcome State Fault Refusal :=
  withOperand src (fun d s => { s with a := op s.a d, p := s.p.setNZ (op s.a d) }) s

/-- BIT: N and V from the operand, Z from its AND with A, A unchanged (R133). -/
def bitOn (src : Source) (s : State) : Host.Outcome State Fault Refusal :=
  withOperand src (fun d s => { s with p := s.p.bitTest s.a d }) s

/-- `AND #n`, opcode 29 (R130): A & DATA to A. -/
def execAndImm (n : Byte) (s : State) : Host.Outcome State Fault Refusal :=
  logicOn (· &&& ·) (.imm n) s

/-- `AND n`, opcode 25 (R130): A & DATA to A. -/
def execAndZp (n : Byte) (s : State) : Host.Outcome State Fault Refusal :=
  logicOn (· &&& ·) (.mem (.zp n)) s

/-- `AND n,X`, opcode 35 (R130): A & DATA to A. -/
def execAndZpx (n : Byte) (s : State) : Host.Outcome State Fault Refusal :=
  logicOn (· &&& ·) (.mem (.zpx n)) s

/-- `AND nn`, opcode 2D (R130): A & DATA to A. -/
def execAndAbs (nn : Word) (s : State) : Host.Outcome State Fault Refusal :=
  logicOn (· &&& ·) (.mem (.abs nn)) s

/-- `AND nn,X`, opcode 3D (R130): A & DATA to A. -/
def execAndAbx (nn : Word) (s : State) : Host.Outcome State Fault Refusal :=
  logicOn (· &&& ·) (.mem (.abx nn)) s

/-- `AND nn,Y`, opcode 39 (R130): A & DATA to A. -/
def execAndAby (nn : Word) (s : State) : Host.Outcome State Fault Refusal :=
  logicOn (· &&& ·) (.mem (.aby nn)) s

/-- `AND (n,X)`, opcode 21 (R130): A & DATA to A. -/
def execAndInx (n : Byte) (s : State) : Host.Outcome State Fault Refusal :=
  logicOn (· &&& ·) (.mem (.inx n)) s

/-- `AND (n),Y`, opcode 31 (R130): A & DATA to A. -/
def execAndIny (n : Byte) (s : State) : Host.Outcome State Fault Refusal :=
  logicOn (· &&& ·) (.mem (.iny n)) s

/-- `EOR #n`, opcode 49 (R131): A ^ DATA to A. -/
def execEorImm (n : Byte) (s : State) : Host.Outcome State Fault Refusal :=
  logicOn (· ^^^ ·) (.imm n) s

/-- `EOR n`, opcode 45 (R131): A ^ DATA to A. -/
def execEorZp (n : Byte) (s : State) : Host.Outcome State Fault Refusal :=
  logicOn (· ^^^ ·) (.mem (.zp n)) s

/-- `EOR n,X`, opcode 55 (R131): A ^ DATA to A. -/
def execEorZpx (n : Byte) (s : State) : Host.Outcome State Fault Refusal :=
  logicOn (· ^^^ ·) (.mem (.zpx n)) s

/-- `EOR nn`, opcode 4D (R131): A ^ DATA to A. -/
def execEorAbs (nn : Word) (s : State) : Host.Outcome State Fault Refusal :=
  logicOn (· ^^^ ·) (.mem (.abs nn)) s

/-- `EOR nn,X`, opcode 5D (R131): A ^ DATA to A. -/
def execEorAbx (nn : Word) (s : State) : Host.Outcome State Fault Refusal :=
  logicOn (· ^^^ ·) (.mem (.abx nn)) s

/-- `EOR nn,Y`, opcode 59 (R131): A ^ DATA to A. -/
def execEorAby (nn : Word) (s : State) : Host.Outcome State Fault Refusal :=
  logicOn (· ^^^ ·) (.mem (.aby nn)) s

/-- `EOR (n,X)`, opcode 41 (R131): A ^ DATA to A. -/
def execEorInx (n : Byte) (s : State) : Host.Outcome State Fault Refusal :=
  logicOn (· ^^^ ·) (.mem (.inx n)) s

/-- `EOR (n),Y`, opcode 51 (R131): A ^ DATA to A. -/
def execEorIny (n : Byte) (s : State) : Host.Outcome State Fault Refusal :=
  logicOn (· ^^^ ·) (.mem (.iny n)) s

/-- `ORA #n`, opcode 09 (R132): A | DATA to A. -/
def execOraImm (n : Byte) (s : State) : Host.Outcome State Fault Refusal :=
  logicOn (· ||| ·) (.imm n) s

/-- `ORA n`, opcode 05 (R132): A | DATA to A. -/
def execOraZp (n : Byte) (s : State) : Host.Outcome State Fault Refusal :=
  logicOn (· ||| ·) (.mem (.zp n)) s

/-- `ORA n,X`, opcode 15 (R132): A | DATA to A. -/
def execOraZpx (n : Byte) (s : State) : Host.Outcome State Fault Refusal :=
  logicOn (· ||| ·) (.mem (.zpx n)) s

/-- `ORA nn`, opcode 0D (R132): A | DATA to A. -/
def execOraAbs (nn : Word) (s : State) : Host.Outcome State Fault Refusal :=
  logicOn (· ||| ·) (.mem (.abs nn)) s

/-- `ORA nn,X`, opcode 1D (R132): A | DATA to A. -/
def execOraAbx (nn : Word) (s : State) : Host.Outcome State Fault Refusal :=
  logicOn (· ||| ·) (.mem (.abx nn)) s

/-- `ORA nn,Y`, opcode 19 (R132): A | DATA to A. -/
def execOraAby (nn : Word) (s : State) : Host.Outcome State Fault Refusal :=
  logicOn (· ||| ·) (.mem (.aby nn)) s

/-- `ORA (n,X)`, opcode 01 (R132): A | DATA to A. -/
def execOraInx (n : Byte) (s : State) : Host.Outcome State Fault Refusal :=
  logicOn (· ||| ·) (.mem (.inx n)) s

/-- `ORA (n),Y`, opcode 11 (R132): A | DATA to A. -/
def execOraIny (n : Byte) (s : State) : Host.Outcome State Fault Refusal :=
  logicOn (· ||| ·) (.mem (.iny n)) s

/-- `BIT n`, opcode 24 (R133): test the bits of DATA under A. -/
def execBitZp (n : Byte) (s : State) : Host.Outcome State Fault Refusal :=
  bitOn (.mem (.zp n)) s

/-- `BIT nn`, opcode 2C (R133): test the bits of DATA under A. -/
def execBitAbs (nn : Word) (s : State) : Host.Outcome State Fault Refusal :=
  bitOn (.mem (.abs nn)) s

end Sys2Proof.Machine
end

