-- ==== Sys2Proof/Machine/ShiftRotate.lean ====
section
/-! DEFINITION. ASL, LSR, ROL, ROR (spec 42_shift_rotate.md R140 to R144; ROR only with HAS_ROR, 00_scope.md R8). -/

namespace Sys2Proof.Machine

/-- `ASL A`, opcode 0A (R140): C takes bit 7, bit 0 takes 0. -/
def execAslAcc (s : State) : Host.Outcome State Fault Refusal :=
  modifyA aslResult s

/-- `ASL n`, opcode 06 (R140): C takes bit 7, bit 0 takes 0. -/
def execAslZp (n : Byte) (s : State) : Host.Outcome State Fault Refusal :=
  modifyAt (.zp n) aslResult s

/-- `ASL n,X`, opcode 16 (R140): C takes bit 7, bit 0 takes 0. -/
def execAslZpx (n : Byte) (s : State) : Host.Outcome State Fault Refusal :=
  modifyAt (.zpx n) aslResult s

/-- `ASL nn`, opcode 0E (R140): C takes bit 7, bit 0 takes 0. -/
def execAslAbs (nn : Word) (s : State) : Host.Outcome State Fault Refusal :=
  modifyAt (.abs nn) aslResult s

/-- `ASL nn,X`, opcode 1E (R140): C takes bit 7, bit 0 takes 0. -/
def execAslAbx (nn : Word) (s : State) : Host.Outcome State Fault Refusal :=
  modifyAt (.abx nn) aslResult s

/-- `LSR A`, opcode 4A (R141): C takes bit 0, bit 7 takes 0. -/
def execLsrAcc (s : State) : Host.Outcome State Fault Refusal :=
  modifyA lsrResult s

/-- `LSR n`, opcode 46 (R141): C takes bit 0, bit 7 takes 0. -/
def execLsrZp (n : Byte) (s : State) : Host.Outcome State Fault Refusal :=
  modifyAt (.zp n) lsrResult s

/-- `LSR n,X`, opcode 56 (R141): C takes bit 0, bit 7 takes 0. -/
def execLsrZpx (n : Byte) (s : State) : Host.Outcome State Fault Refusal :=
  modifyAt (.zpx n) lsrResult s

/-- `LSR nn`, opcode 4E (R141): C takes bit 0, bit 7 takes 0. -/
def execLsrAbs (nn : Word) (s : State) : Host.Outcome State Fault Refusal :=
  modifyAt (.abs nn) lsrResult s

/-- `LSR nn,X`, opcode 5E (R141): C takes bit 0, bit 7 takes 0. -/
def execLsrAbx (nn : Word) (s : State) : Host.Outcome State Fault Refusal :=
  modifyAt (.abx nn) lsrResult s

/-- `ROL A`, opcode 2A (R142): left through C. -/
def execRolAcc (s : State) : Host.Outcome State Fault Refusal :=
  modifyA rolResult s

/-- `ROL n`, opcode 26 (R142): left through C. -/
def execRolZp (n : Byte) (s : State) : Host.Outcome State Fault Refusal :=
  modifyAt (.zp n) rolResult s

/-- `ROL n,X`, opcode 36 (R142): left through C. -/
def execRolZpx (n : Byte) (s : State) : Host.Outcome State Fault Refusal :=
  modifyAt (.zpx n) rolResult s

/-- `ROL nn`, opcode 2E (R142): left through C. -/
def execRolAbs (nn : Word) (s : State) : Host.Outcome State Fault Refusal :=
  modifyAt (.abs nn) rolResult s

/-- `ROL nn,X`, opcode 3E (R142): left through C. -/
def execRolAbx (nn : Word) (s : State) : Host.Outcome State Fault Refusal :=
  modifyAt (.abx nn) rolResult s

/-- `ROR A`, opcode 6A (R143): right through C, on a part that has it (R8). -/
def execRorAcc (s : State) : Host.Outcome State Fault Refusal :=
  ifPresent s.params.hasRor 0x6A#8 (modifyA rorResult s)

/-- `ROR n`, opcode 66 (R143): right through C, on a part that has it (R8). -/
def execRorZp (n : Byte) (s : State) : Host.Outcome State Fault Refusal :=
  ifPresent s.params.hasRor 0x66#8 (modifyAt (.zp n) rorResult s)

/-- `ROR n,X`, opcode 76 (R143): right through C, on a part that has it (R8). -/
def execRorZpx (n : Byte) (s : State) : Host.Outcome State Fault Refusal :=
  ifPresent s.params.hasRor 0x76#8 (modifyAt (.zpx n) rorResult s)

/-- `ROR nn`, opcode 6E (R143): right through C, on a part that has it (R8). -/
def execRorAbs (nn : Word) (s : State) : Host.Outcome State Fault Refusal :=
  ifPresent s.params.hasRor 0x6E#8 (modifyAt (.abs nn) rorResult s)

/-- `ROR nn,X`, opcode 7E (R143): right through C, on a part that has it (R8). -/
def execRorAbx (nn : Word) (s : State) : Host.Outcome State Fault Refusal :=
  ifPresent s.params.hasRor 0x7E#8 (modifyAt (.abx nn) rorResult s)

end Sys2Proof.Machine
end

