-- ==== Sys2Proof/Machine/StackTransfer.lean ====
section
/-! DEFINITION. PHA, PHP, PLA, PLP and the register transfers (spec 48_stack_transfer.md R200 to R209). -/

namespace Sys2Proof.Machine

/-- `PHA`, opcode 48 (R200): push A. -/
def execPha (s : State) : Host.Outcome State Fault Refusal :=
  implied (fun s => s.push8 s.a) s

/-- `PHP`, opcode 08 (R201): push P, with bits 5 and 4 at 1. -/
def execPhp (s : State) : Host.Outcome State Fault Refusal :=
  implied (fun s => s.push8 (s.p.pByte true)) s

/-- `PLA`, opcode 68 (R202): pull A, N and Z from it. -/
def execPla (s : State) : Host.Outcome State Fault Refusal :=
  implied (fun s => s.pull8.setA s.pulledByte) s

/-- `PLP`, opcode 28 (R203): pull P. -/
def execPlp (s : State) : Host.Outcome State Fault Refusal :=
  implied (fun s => { s.pull8 with p := flagsOfByte s.pulledByte }) s

/-- `TAX`, opcode AA (R204): A to X. -/
def execTax (s : State) : Host.Outcome State Fault Refusal :=
  implied (fun s => s.setX s.a) s

/-- `TAY`, opcode A8 (R205): A to Y. -/
def execTay (s : State) : Host.Outcome State Fault Refusal :=
  implied (fun s => s.setY s.a) s

/-- `TSX`, opcode BA (R206): S to X. -/
def execTsx (s : State) : Host.Outcome State Fault Refusal :=
  implied (fun s => s.setX s.sp) s

/-- `TXA`, opcode 8A (R207): X to A. -/
def execTxa (s : State) : Host.Outcome State Fault Refusal :=
  implied (fun s => s.setA s.x) s

/-- `TXS`, opcode 9A (R208): X to S, no flag. -/
def execTxs (s : State) : Host.Outcome State Fault Refusal :=
  implied (fun s => { s with sp := s.x }) s

/-- `TYA`, opcode 98 (R209): Y to A. -/
def execTya (s : State) : Host.Outcome State Fault Refusal :=
  implied (fun s => s.setA s.y) s

end Sys2Proof.Machine
end

