-- ==== Sys2Proof/Machine/System.lean ====
section
/-! DEFINITION. BRK, RTI, NOP (spec 49_system.md R215 to R217). -/

namespace Sys2Proof.Machine

/-- `BRK`, opcode 00 (R215): push the return address plus 1 and P with B = 1, I = 1, PC from the IRQ vector. -/
def execBrk (s : State) : Host.Outcome State Fault Refusal :=
  .next (s.takeException true (s.pc + 2) irqVector)

/-- `RTI`, opcode 40 (R216): pull P, then PC. -/
def execRti (s : State) : Host.Outcome State Fault Refusal :=
  .next s.returnFromException

/-- `NOP`, opcode EA (R217): nothing but the pc. -/
def execNop (s : State) : Host.Outcome State Fault Refusal :=
  implied (fun s => s) s

end Sys2Proof.Machine
end

