-- ==== Sys2Proof/Machine/Dispatch.lean ====
section
/-! DEFINITION. The meaning of every instruction, one arm per constructor. -/

namespace Sys2Proof.Machine

def exec (i : Instr) (s : State) : Host.Outcome State Fault Refusal :=
  match i with
  -- 40_arithmetic.md
  | .adcImm n => Sys2Proof.Machine.execAdcImm n s
  | .adcZp n => Sys2Proof.Machine.execAdcZp n s
  | .adcZpx n => Sys2Proof.Machine.execAdcZpx n s
  | .adcAbs nn => Sys2Proof.Machine.execAdcAbs nn s
  | .adcAbx nn => Sys2Proof.Machine.execAdcAbx nn s
  | .adcAby nn => Sys2Proof.Machine.execAdcAby nn s
  | .adcInx n => Sys2Proof.Machine.execAdcInx n s
  | .adcIny n => Sys2Proof.Machine.execAdcIny n s
  | .sbcImm n => Sys2Proof.Machine.execSbcImm n s
  | .sbcZp n => Sys2Proof.Machine.execSbcZp n s
  | .sbcZpx n => Sys2Proof.Machine.execSbcZpx n s
  | .sbcAbs nn => Sys2Proof.Machine.execSbcAbs nn s
  | .sbcAbx nn => Sys2Proof.Machine.execSbcAbx nn s
  | .sbcAby nn => Sys2Proof.Machine.execSbcAby nn s
  | .sbcInx n => Sys2Proof.Machine.execSbcInx n s
  | .sbcIny n => Sys2Proof.Machine.execSbcIny n s
  | .cmpImm n => Sys2Proof.Machine.execCmpImm n s
  | .cmpZp n => Sys2Proof.Machine.execCmpZp n s
  | .cmpZpx n => Sys2Proof.Machine.execCmpZpx n s
  | .cmpAbs nn => Sys2Proof.Machine.execCmpAbs nn s
  | .cmpAbx nn => Sys2Proof.Machine.execCmpAbx nn s
  | .cmpAby nn => Sys2Proof.Machine.execCmpAby nn s
  | .cmpInx n => Sys2Proof.Machine.execCmpInx n s
  | .cmpIny n => Sys2Proof.Machine.execCmpIny n s
  | .cpxImm n => Sys2Proof.Machine.execCpxImm n s
  | .cpxZp n => Sys2Proof.Machine.execCpxZp n s
  | .cpxAbs nn => Sys2Proof.Machine.execCpxAbs nn s
  | .cpyImm n => Sys2Proof.Machine.execCpyImm n s
  | .cpyZp n => Sys2Proof.Machine.execCpyZp n s
  | .cpyAbs nn => Sys2Proof.Machine.execCpyAbs nn s
  -- 41_logic.md
  | .andImm n => Sys2Proof.Machine.execAndImm n s
  | .andZp n => Sys2Proof.Machine.execAndZp n s
  | .andZpx n => Sys2Proof.Machine.execAndZpx n s
  | .andAbs nn => Sys2Proof.Machine.execAndAbs nn s
  | .andAbx nn => Sys2Proof.Machine.execAndAbx nn s
  | .andAby nn => Sys2Proof.Machine.execAndAby nn s
  | .andInx n => Sys2Proof.Machine.execAndInx n s
  | .andIny n => Sys2Proof.Machine.execAndIny n s
  | .eorImm n => Sys2Proof.Machine.execEorImm n s
  | .eorZp n => Sys2Proof.Machine.execEorZp n s
  | .eorZpx n => Sys2Proof.Machine.execEorZpx n s
  | .eorAbs nn => Sys2Proof.Machine.execEorAbs nn s
  | .eorAbx nn => Sys2Proof.Machine.execEorAbx nn s
  | .eorAby nn => Sys2Proof.Machine.execEorAby nn s
  | .eorInx n => Sys2Proof.Machine.execEorInx n s
  | .eorIny n => Sys2Proof.Machine.execEorIny n s
  | .oraImm n => Sys2Proof.Machine.execOraImm n s
  | .oraZp n => Sys2Proof.Machine.execOraZp n s
  | .oraZpx n => Sys2Proof.Machine.execOraZpx n s
  | .oraAbs nn => Sys2Proof.Machine.execOraAbs nn s
  | .oraAbx nn => Sys2Proof.Machine.execOraAbx nn s
  | .oraAby nn => Sys2Proof.Machine.execOraAby nn s
  | .oraInx n => Sys2Proof.Machine.execOraInx n s
  | .oraIny n => Sys2Proof.Machine.execOraIny n s
  | .bitZp n => Sys2Proof.Machine.execBitZp n s
  | .bitAbs nn => Sys2Proof.Machine.execBitAbs nn s
  -- 42_shift_rotate.md
  | .aslAcc => Sys2Proof.Machine.execAslAcc s
  | .aslZp n => Sys2Proof.Machine.execAslZp n s
  | .aslZpx n => Sys2Proof.Machine.execAslZpx n s
  | .aslAbs nn => Sys2Proof.Machine.execAslAbs nn s
  | .aslAbx nn => Sys2Proof.Machine.execAslAbx nn s
  | .lsrAcc => Sys2Proof.Machine.execLsrAcc s
  | .lsrZp n => Sys2Proof.Machine.execLsrZp n s
  | .lsrZpx n => Sys2Proof.Machine.execLsrZpx n s
  | .lsrAbs nn => Sys2Proof.Machine.execLsrAbs nn s
  | .lsrAbx nn => Sys2Proof.Machine.execLsrAbx nn s
  | .rolAcc => Sys2Proof.Machine.execRolAcc s
  | .rolZp n => Sys2Proof.Machine.execRolZp n s
  | .rolZpx n => Sys2Proof.Machine.execRolZpx n s
  | .rolAbs nn => Sys2Proof.Machine.execRolAbs nn s
  | .rolAbx nn => Sys2Proof.Machine.execRolAbx nn s
  | .rorAcc => Sys2Proof.Machine.execRorAcc s
  | .rorZp n => Sys2Proof.Machine.execRorZp n s
  | .rorZpx n => Sys2Proof.Machine.execRorZpx n s
  | .rorAbs nn => Sys2Proof.Machine.execRorAbs nn s
  | .rorAbx nn => Sys2Proof.Machine.execRorAbx nn s
  -- 43_branch.md
  | .bcc n => Sys2Proof.Machine.execBcc n s
  | .bcs n => Sys2Proof.Machine.execBcs n s
  | .beq n => Sys2Proof.Machine.execBeq n s
  | .bne n => Sys2Proof.Machine.execBne n s
  | .bmi n => Sys2Proof.Machine.execBmi n s
  | .bpl n => Sys2Proof.Machine.execBpl n s
  | .bvc n => Sys2Proof.Machine.execBvc n s
  | .bvs n => Sys2Proof.Machine.execBvs n s
  -- 44_flag.md
  | .clc => Sys2Proof.Machine.execClc s
  | .cld => Sys2Proof.Machine.execCld s
  | .cli => Sys2Proof.Machine.execCli s
  | .clv => Sys2Proof.Machine.execClv s
  | .sec => Sys2Proof.Machine.execSec s
  | .sed => Sys2Proof.Machine.execSed s
  | .sei => Sys2Proof.Machine.execSei s
  -- 45_incdec.md
  | .decZp n => Sys2Proof.Machine.execDecZp n s
  | .decZpx n => Sys2Proof.Machine.execDecZpx n s
  | .decAbs nn => Sys2Proof.Machine.execDecAbs nn s
  | .decAbx nn => Sys2Proof.Machine.execDecAbx nn s
  | .dex => Sys2Proof.Machine.execDex s
  | .dey => Sys2Proof.Machine.execDey s
  | .incZp n => Sys2Proof.Machine.execIncZp n s
  | .incZpx n => Sys2Proof.Machine.execIncZpx n s
  | .incAbs nn => Sys2Proof.Machine.execIncAbs nn s
  | .incAbx nn => Sys2Proof.Machine.execIncAbx nn s
  | .inx => Sys2Proof.Machine.execInx s
  | .iny => Sys2Proof.Machine.execIny s
  -- 46_jump_subroutine.md
  | .jmpAbs nn => Sys2Proof.Machine.execJmpAbs nn s
  | .jmpInd nn => Sys2Proof.Machine.execJmpInd nn s
  | .jsr nn => Sys2Proof.Machine.execJsr nn s
  | .rts => Sys2Proof.Machine.execRts s
  -- 47_load_store.md
  | .ldaImm n => Sys2Proof.Machine.execLdaImm n s
  | .ldaZp n => Sys2Proof.Machine.execLdaZp n s
  | .ldaZpx n => Sys2Proof.Machine.execLdaZpx n s
  | .ldaAbs nn => Sys2Proof.Machine.execLdaAbs nn s
  | .ldaAbx nn => Sys2Proof.Machine.execLdaAbx nn s
  | .ldaAby nn => Sys2Proof.Machine.execLdaAby nn s
  | .ldaInx n => Sys2Proof.Machine.execLdaInx n s
  | .ldaIny n => Sys2Proof.Machine.execLdaIny n s
  | .ldxImm n => Sys2Proof.Machine.execLdxImm n s
  | .ldxZp n => Sys2Proof.Machine.execLdxZp n s
  | .ldxZpy n => Sys2Proof.Machine.execLdxZpy n s
  | .ldxAbs nn => Sys2Proof.Machine.execLdxAbs nn s
  | .ldxAby nn => Sys2Proof.Machine.execLdxAby nn s
  | .ldyImm n => Sys2Proof.Machine.execLdyImm n s
  | .ldyZp n => Sys2Proof.Machine.execLdyZp n s
  | .ldyZpx n => Sys2Proof.Machine.execLdyZpx n s
  | .ldyAbs nn => Sys2Proof.Machine.execLdyAbs nn s
  | .ldyAbx nn => Sys2Proof.Machine.execLdyAbx nn s
  | .staZp n => Sys2Proof.Machine.execStaZp n s
  | .staZpx n => Sys2Proof.Machine.execStaZpx n s
  | .staAbs nn => Sys2Proof.Machine.execStaAbs nn s
  | .staAbx nn => Sys2Proof.Machine.execStaAbx nn s
  | .staAby nn => Sys2Proof.Machine.execStaAby nn s
  | .staInx n => Sys2Proof.Machine.execStaInx n s
  | .staIny n => Sys2Proof.Machine.execStaIny n s
  | .stxZp n => Sys2Proof.Machine.execStxZp n s
  | .stxZpy n => Sys2Proof.Machine.execStxZpy n s
  | .stxAbs nn => Sys2Proof.Machine.execStxAbs nn s
  | .styZp n => Sys2Proof.Machine.execStyZp n s
  | .styZpx n => Sys2Proof.Machine.execStyZpx n s
  | .styAbs nn => Sys2Proof.Machine.execStyAbs nn s
  -- 48_stack_transfer.md
  | .pha => Sys2Proof.Machine.execPha s
  | .php => Sys2Proof.Machine.execPhp s
  | .pla => Sys2Proof.Machine.execPla s
  | .plp => Sys2Proof.Machine.execPlp s
  | .tax => Sys2Proof.Machine.execTax s
  | .tay => Sys2Proof.Machine.execTay s
  | .tsx => Sys2Proof.Machine.execTsx s
  | .txa => Sys2Proof.Machine.execTxa s
  | .txs => Sys2Proof.Machine.execTxs s
  | .tya => Sys2Proof.Machine.execTya s
  -- 49_system.md
  | .brk => Sys2Proof.Machine.execBrk s
  | .rti => Sys2Proof.Machine.execRti s
  | .nop => Sys2Proof.Machine.execNop s

end Sys2Proof.Machine
end

