-- ==== Sys2Proof/Machine/Timing.lean ====
section
/-! DEFINITION. The cycle counts (spec 70_reset_and_hazards.md R260, R262, R263): an observer that no meaning reads (R264,
log 21). -/

namespace Sys2Proof.Machine

/-- The classes of R260's table. -/
inductive TimingClass where
  | read
  | store
  | modify
  | branch
  | other (cycles : Nat)
deriving DecidableEq, Repr

/-- The class of a mnemonic, or its one count (R260). -/
def timingClass : Mnemonic → TimingClass
  | .adc | .and | .bit | .cmp | .cpx | .cpy | .eor | .lda | .ldx | .ldy | .ora | .sbc => .read
  | .sta | .stx | .sty => .store
  | .asl | .dec | .inc | .lsr | .rol | .ror => .modify
  | .bcc | .bcs | .beq | .bne | .bmi | .bpl | .bvc | .bvs => .branch
  | .clc | .cld | .cli | .clv | .sec | .sed | .sei => .other 2
  | .dex | .dey | .inx | .iny | .nop => .other 2
  | .tax | .tay | .tsx | .txa | .txs | .tya => .other 2
  | .pha | .php => .other 3
  | .pla | .plp => .other 4
  | .jsr | .rts | .rti => .other 6
  | .brk => .other 7
  | .jmp => .other 3

/-- The counts of the read class, without the "+" (R260). -/
def readCycles : Source → Nat
  | .imm _ => 2
  | .mem (.zp _) => 3
  | .mem (.zpx _) => 4
  | .mem (.zpy _) => 4
  | .mem (.abs _) => 4
  | .mem (.abx _) => 4
  | .mem (.aby _) => 4
  | .mem (.inx _) => 6
  | .mem (.iny _) => 5

/-- The counts of the store class (R260): the indexed forms always take the longer time. -/
def storeCycles : MemForm → Nat
  | .zp _ => 3
  | .zpx _ => 4
  | .zpy _ => 4
  | .abs _ => 4
  | .abx _ => 5
  | .aby _ => 5
  | .inx _ => 6
  | .iny _ => 6

/-- The counts of the read-modify-write class in the four memory forms it has: two more than an access of the form, and a
third more for `nn,X`, whose count is fixed (R260). -/
def modifyCycles : MemForm → Nat
  | .abx _ => 7
  | .aby _ => 7
  | m => readCycles (.mem m) + 2

/-- "Add 1 if indexing across page boundary": the base and the effective address differ in their high byte (R263). -/
def pageCrossing (base : Word) (index : Byte) : Nat :=
  if 256 ≤ (lowByte base).toNat + index.toNat then 1 else 0

/-- The "+" of a read-class instruction: only `nn,X`, `nn,Y` and `(n),Y` have one (R263). -/
def indexingCycles (src : Source) (s : State) : Nat :=
  match src with
  | .mem (.abx nn) => pageCrossing nn s.x
  | .mem (.aby nn) => pageCrossing nn s.y
  | .mem (.iny n) =>
    match zeroPagePointer n s with
    | .ok base => pageCrossing base s.y
    | .error _ => 0
  | _ => 0

/-- A branch: 2 not taken, 3 taken within the page of the next instruction, 4 taken to another page (R262). -/
def branchCycles (taken : Bool) (n : Byte) (s : State) : Nat :=
  if !taken then 2
  else if highByte (branchTarget n s) = highByte (s.pc + 2) then 3
  else 4

/-- Whether a branch is taken, as its own rule says (R151 to R158). -/
def branchTaken (m : Mnemonic) (f : Flags) : Bool :=
  match m with
  | .bcc => !f.c
  | .bcs => f.c
  | .beq => f.z
  | .bne => !f.z
  | .bmi => f.n
  | .bpl => !f.n
  | .bvc => !f.v
  | .bvs => f.v
  | _ => false

/-- The cycles that an instruction takes in a state (R260, R262, R263). `JMP (nn)` takes two more than `JMP nn`. -/
def cyclesOf (i : Instr) (s : State) : Nat :=
  match timingClass i.mnemonic, i.form with
  | .read, .data src => readCycles src + indexingCycles src s
  | .store, .data (.mem m) => storeCycles m
  | .modify, .data (.mem m) => modifyCycles m
  | .modify, _ => 2
  | .branch, .rel n => branchCycles (branchTaken i.mnemonic s.p) n s
  | .other _, .ind _ => 5
  | .other k, _ => k
  | _, _ => 0

/-- The cycles of the IRQ, NMI and RES sequences. PRESUMED (log 21): the card gives none, the spec takes 7 from general
knowledge of the part. -/
def entryCycles : Nat := 7

end Sys2Proof.Machine
end

