-- ==== Sys2Proof/Machine/Step.lean ====
section
/-! DEFINITION. One step: one evaluation of the boundary rule and what it leads to (spec 60_exceptions.md R228). -/

namespace Sys2Proof.Machine

/-- Fetch at PC and execute (R23, R75), with the cycle observer moved on. -/
def runInstruction (s : State) : Host.Outcome State Fault Refusal :=
  match s.fetch with
  | .error r => .refused r
  | .ok i => spendOn (cyclesOf i s) (exec i s)

/-- One step (R228): RES, else NMI entry, else IRQ entry, else the instruction at PC. -/
def step (s : State) : Host.Outcome State Fault Refusal :=
  match s.event with
  | .reset => .next (s.atBoundary.enterReset.spend entryCycles)
  | .nmi => .next (s.atBoundary.enterNmi.spend entryCycles)
  | .irq => .next (s.atBoundary.enterIrq.spend entryCycles)
  | .instruction => runInstruction s.atBoundary

/-- The state with the instruction's bytes in the cells that the next step fetches from, and no input line asserted at
the next boundary: a program as the platform loads it (log 22). -/
def State.withFetchWord (s : State) (nbits w : Nat) : State :=
  { s with
    inputs := []
    nmiPending := false
    mem := placeBytes s.params s.pc (tableWordBytes nbits w) s.mem }

end Sys2Proof.Machine
end

