-- ==== Sys2Proof/WellFormed.lean ====
section
/-! DEFINITION. Which instructions a part has. Every operand of an `Instr` is a byte or a word, so the one check the spec
leaves is the ROR option (spec 00_scope.md R8). -/

namespace Sys2Proof

/-- The part with parameters `p` has the instruction: all of R95, but ROR only when `HAS_ROR` (R8, D2). -/
def Instr.wellFormed (p : Params) (i : Instr) : Bool :=
  p.hasRor || i.mnemonic != .ror

end Sys2Proof
end

