-- ==== Sys2Proof/Safety.lean ====
section
/-! DEFINITION. The terms that statements about runs use: the machine's invariant, parameters under which the fewest
instructions stop, and the spec's tables of what an instruction may write (spec 10_state.md R35, R42). -/

namespace Sys2Proof.Machine

/-- RAM or ROM: a kind whose bytes memory holds (R51). -/
def isMemoryKind : MemKind → Bool
  | .ram => true
  | .rom => true
  | .io => false
  | .unpopulated => false

/-- The invariant of the machine: memory is canonical, it lists only cells where RAM or ROM stands, and every output event
is at an address where neither stands (R51). -/
def State.Inv (s : State) : Prop :=
  s.mem.wf = true ∧
  (∀ c ∈ s.mem, isMemoryKind (kindIn s.params.memMap c.1) = true) ∧
  (∀ c ∈ s.outputs, c.1 < 65536 ∧ isMemoryKind (kindAt s.params (BitVec.ofNat 16 c.1)) = false)

/-- Parameters under which only an undefined opcode and decimal arithmetic on operands that are not BCD are refused: ROR, the
wrapping pointer, either reading of JMP (nn) at the end of a page, and decimal arithmetic on BCD; MEMMAP,
STACK_IN_PAGE_ZERO and SO_PIN_USED are any (R7). -/
def refusesLeast (p : Params) : Prop :=
  p.hasRor = true ∧ p.zpPtrCross = .wrap ∧ p.jmpIndCross ≠ .refuse ∧ p.decimalMode = .bcdValidOnly

/-- The instruction is an ADC or SBC with D = 1, and A or its operand byte is not BCD: the case to which R122 gives no
meaning. -/
def takesNonBcd (i : Instr) (s : State) : Prop :=
  (i.mnemonic = .adc ∨ i.mnemonic = .sbc) ∧ s.p.d = true ∧
    ∃ src d, i.form = .data src ∧ operandByte src s = .ok d ∧ (isBcd s.a && isBcd d) = false

/-- Every location of the stack is RAM (R51: needed for the stack to work as the rules say). -/
def stackIsRam (p : Params) : Prop := ∀ k : Byte, kindAt p (stackAddress k) = .ram

/-- The flags of P. -/
inductive FlagName where
  | n
  | v
  | d
  | i
  | z
  | c
deriving DecidableEq, Repr

/-- The value of a flag (R11: `P.N` and so on). -/
def flagValue : FlagName → Flags → Bool
  | .n, f => f.n
  | .v, f => f.v
  | .d, f => f.d
  | .i, f => f.i
  | .z, f => f.z
  | .c, f => f.c

/-- The card's "Effect on Flags" table: the flags that a mnemonic's row does not show as unchanged (R35); B is not held
(R29). -/
def flagsWritten : Mnemonic → List FlagName
  | .adc | .sbc => [.n, .v, .z, .c]
  | .bit => [.n, .v, .z]
  | .asl | .lsr | .rol | .ror | .cmp | .cpx | .cpy => [.n, .z, .c]
  | .and | .eor | .ora | .lda | .ldx | .ldy | .pla | .tax | .tay | .tsx | .txa | .tya => [.n, .z]
  | .inc | .inx | .iny | .dec | .dex | .dey => [.n, .z]
  | .plp | .rti => [.n, .v, .d, .i, .z, .c]
  | .brk | .cli | .sei => [.i]
  | .clc | .sec => [.c]
  | .cld | .sed => [.d]
  | .clv => [.v]
  | .bcc | .bcs | .beq | .bmi | .bne | .bpl | .bvc | .bvs => []
  | .jmp | .jsr | .nop | .pha | .php | .rts | .sta | .stx | .sty | .txs => []

/-- The registers of R42's table, with memory and the output events that stand for it at a device. -/
inductive Resource where
  | a
  | x
  | y
  | s
  | memory
deriving DecidableEq, Repr

/-- What a row of the opcode table writes (R42). The shifts write A in their Accumulator form, memory in the others. -/
def resourcesWritten (i : Instr) : List Resource :=
  match i.mnemonic, i.form with
  | .asl, .acc | .lsr, .acc | .rol, .acc | .ror, .acc => [.a]
  | .asl, _ | .lsr, _ | .rol, _ | .ror, _ | .inc, _ | .dec, _ => [.memory]
  | .adc, _ | .sbc, _ | .and, _ | .eor, _ | .ora, _ | .lda, _ | .txa, _ | .tya, _ => [.a]
  | .ldx, _ | .tax, _ | .tsx, _ | .inx, _ | .dex, _ => [.x]
  | .ldy, _ | .tay, _ | .iny, _ | .dey, _ => [.y]
  | .txs, _ | .plp, _ | .rts, _ | .rti, _ => [.s]
  | .pla, _ => [.a, .s]
  | .pha, _ | .php, _ | .jsr, _ | .brk, _ => [.s, .memory]
  | .sta, _ | .stx, _ | .sty, _ => [.memory]
  | .bit, _ | .cmp, _ | .cpx, _ | .cpy, _ | .jmp, _ | .nop, _ => []
  | .bcc, _ | .bcs, _ | .beq, _ | .bmi, _ | .bne, _ | .bpl, _ | .bvc, _ | .bvs, _ => []
  | .clc, _ | .cld, _ | .cli, _ | .clv, _ | .sec, _ | .sed, _ | .sei, _ => []

/-- The part of the machine that a resource names is the same in two states. -/
def sameResource : Resource → State → State → Prop
  | .a, s, t => t.a = s.a
  | .x, s, t => t.x = s.x
  | .y, s, t => t.y = s.y
  | .s, s, t => t.sp = s.sp
  | .memory, s, t => t.mem = s.mem ∧ t.outputs = s.outputs

/-- The value that a shift or rotate of `v` with carry-in `c` gives, as arithmetic (R140 to R143); 0 for a mnemonic that is
none. -/
def shiftedValue : Mnemonic → Byte → Bool → Nat
  | .asl, v, _ => 2 * v.toNat % 256
  | .lsr, v, _ => v.toNat / 2
  | .rol, v, c => 2 * v.toNat % 256 + c.toNat
  | .ror, v, c => v.toNat / 2 + 128 * c.toNat
  | _, _, _ => 0

/-- The bit that a shift or rotate moves into C: bit 7 to the left, bit 0 to the right (R140 to R143). -/
def shiftedOutBit : Mnemonic → Byte → Bool
  | .asl, v => decide (128 ≤ v.toNat)
  | .rol, v => decide (128 ≤ v.toNat)
  | .lsr, v => decide (v.toNat % 2 = 1)
  | .ror, v => decide (v.toNat % 2 = 1)
  | _, _ => false

/-- The 105 opcode bytes without a row, as R97 lists them by high digit. -/
def undefinedOpcodes : List Nat :=
  [0x02, 0x03, 0x04, 0x07, 0x0B, 0x0C, 0x0F] ++
  [0x12, 0x13, 0x14, 0x17, 0x1A, 0x1B, 0x1C, 0x1F] ++
  [0x22, 0x23, 0x27, 0x2B, 0x2F] ++
  [0x32, 0x33, 0x34, 0x37, 0x3A, 0x3B, 0x3C, 0x3F] ++
  [0x42, 0x43, 0x44, 0x47, 0x4B, 0x4F] ++
  [0x52, 0x53, 0x54, 0x57, 0x5A, 0x5B, 0x5C, 0x5F] ++
  [0x62, 0x63, 0x64, 0x67, 0x6B, 0x6F] ++
  [0x72, 0x73, 0x74, 0x77, 0x7A, 0x7B, 0x7C, 0x7F] ++
  [0x80, 0x82, 0x83, 0x87, 0x89, 0x8B, 0x8F] ++
  [0x92, 0x93, 0x97, 0x9B, 0x9C, 0x9E, 0x9F] ++
  [0xA3, 0xA7, 0xAB, 0xAF] ++
  [0xB2, 0xB3, 0xB7, 0xBB, 0xBF] ++
  [0xC2, 0xC3, 0xC7, 0xCB, 0xCF] ++
  [0xD2, 0xD3, 0xD4, 0xD7, 0xDA, 0xDB, 0xDC, 0xDF] ++
  [0xE2, 0xE3, 0xE7, 0xEB, 0xEF] ++
  [0xF2, 0xF3, 0xF4, 0xF7, 0xFA, 0xFB, 0xFC, 0xFF]

/-- The five opcodes of ROR, which a part without it does not define (R8, R97). -/
def rorOpcodes : List Nat := [0x66, 0x6A, 0x6E, 0x76, 0x7E]

end Sys2Proof.Machine
end

