-- ==== Sys2Proof/Certificates/Slice0/Obligations.lean ====
section
/-! DEFINITION. The statements about the model, for the provers. A statement about every state also holds in states that no
run reaches; where it needs more, the premise is `State.Inv`, or a condition on the parameters or on the kind of a location. -/

open Sys2Proof Sys2Proof.Machine

/-! ### Encoding -/

/-- Decoding an encoded instruction gives it back, with the bytes after it, for every instruction and operand (R80 to R82,
R95). -/
def Obligations.DecodeOfEncodeGivesTheInstructionBack : Prop :=
  ∀ (i : Instr) (rest : List Byte), decode (encode i ++ rest) = .ok (i, rest)

/-- Bytes that decode are the encoding of what they decode to: each byte sequence has one meaning (R81, R82). -/
def Obligations.DecodedBytesAreTheEncoding : Prop :=
  ∀ (bytes rest : List Byte) (i : Instr), decode bytes = .ok (i, rest) → bytes = encode i ++ rest

/-- The opcode byte alone fixes the operation and the length (R81). -/
def Obligations.OpcodeFixesOperationAndLength : Prop :=
  ∀ i j : Instr, i.opcode = j.opcode → i.mnemonic = j.mnemonic ∧ (encode i).length = (encode j).length

/-- Words written out from the encoding tables of the spec decode to their instructions. -/
def Obligations.SampleWordsDecode : Prop :=
  decode [0x4C#8, 0x34#8, 0x12#8] = .ok (.jmpAbs 0x1234#16, []) ∧
  decode [0x69#8, 0x50#8] = .ok (.adcImm 0x50#8, []) ∧
  decode [0x91#8, 0x20#8] = .ok (.staIny 0x20#8, []) ∧
  decode [0x1E#8, 0x00#8, 0x02#8] = .ok (.aslAbx 0x0200#16, []) ∧
  decode [0xD0#8, 0xFB#8] = .ok (.bne 0xFB#8, []) ∧
  decode [0x00#8] = .ok (.brk, []) ∧
  decode [0x2A#8, 0xEA#8] = .ok (.rolAcc, [0xEA#8]) ∧
  decode [0x02#8] = .error (.undefinedOpcode 0x02#8)

/-- An opcode byte without a row, and an ROR opcode on a part without ROR, is refused by name; there are 105 of the first
kind (R97, R8). -/
def Obligations.UndefinedOpcodesAreRefused : Prop :=
  (∀ op : Byte, opcodeShape op = none ↔ op.toNat ∈ undefinedOpcodes) ∧
  undefinedOpcodes.length = 105 ∧
  (∀ s : State, s.event = .instruction →
    (s.atBoundary.readByte .opcode s.pc).toNat ∈ undefinedOpcodes ∨
      (s.params.hasRor = false ∧ (s.atBoundary.readByte .opcode s.pc).toNat ∈ rorOpcodes) →
    step s = .refused (.undefinedOpcode (s.atBoundary.readByte .opcode s.pc)))

/-! ### Memory -/

/-- In a canonical memory, a read after a write gives the byte written at its address and the old byte elsewhere (R52,
R69). -/
def Obligations.MemoryReadsBackTheLastWrite : Prop :=
  ∀ (m : Memory) (a c : Nat) (v : Byte), m.wf = true → (m.write a v).read c = if c = a then v else m.read c

/-- A write by the kind of the location: RAM reads back, ROM is unchanged, a device or nothing gets an output event and
memory keeps every byte; no other cell changes in any case (R51; the list of events is the model's form, log 12). -/
def Obligations.WritesActByTheKindOfTheLocation : Prop :=
  ∀ (s : State) (addr : Word) (v : Byte), s.Inv →
    (kindAt s.params addr = .ram → ∀ use, (s.writeByte addr v).readByte use addr = v) ∧
    (kindAt s.params addr = .rom → s.writeByte addr v = s) ∧
    (kindAt s.params addr = .io ∨ kindAt s.params addr = .unpopulated →
      (s.writeByte addr v).mem = s.mem ∧ (s.writeByte addr v).outputs = (addr.toNat, v) :: s.outputs) ∧
    (∀ use other, cellOf s.params other ≠ cellOf s.params addr →
      (s.writeByte addr v).readByte use other = s.readByte use other)

/-- With STACK_IN_PAGE_ZERO, page 1 is page 0: a byte written on the stack page is read in page 0 and the other way round,
where RAM stands; without it, no two addresses share a cell; the two addresses are k and 256 + k (R66; that no other page is aliased is the model's choice, log
19). -/
def Obligations.StackInPageZeroAliasesTheTwoPages : Prop :=
  ∀ (s : State) (k v : Byte), s.Inv →
    (s.params.stackInPageZero = true → kindAt s.params (zeroPage k) = .ram →
      (∀ use, (s.writeByte (stackAddress k) v).readByte use (zeroPage k) = v) ∧
      (∀ use, (s.writeByte (zeroPage k) v).readByte use (stackAddress k) = v)) ∧
    (s.params.stackInPageZero = false → ∀ a b : Word, cellOf s.params a = cellOf s.params b → a = b) ∧
    (zeroPage k).toNat = k.toNat ∧ (stackAddress k).toNat = 256 + k.toNat

/-- A pull returns what the push before it stored and takes S back, on a stack of RAM (R60 to R64). -/
def Obligations.PullReturnsWhatWasPushed : Prop :=
  ∀ (s : State) (v : Byte) (w : Word), s.Inv → stackIsRam s.params →
    (s.push8 v).pulledByte = v ∧ (s.push8 v).pull8.sp = s.sp ∧
    (s.push16 w).pulledWord = w ∧ (s.push16 w).pull16.sp = s.sp

/-- "In pushing PC, high byte is pushed first": after `push16`, the high byte is at 0x0100 + S and the low byte one place
below it in page 1, and S is two less (R62, R64). The last three clauses fix the address of a stack location (R59) and the
two bytes of a word (R53) as numbers. -/
def Obligations.PushOfAWordStoresHighByteFirst : Prop :=
  ∀ (s : State) (w : Word) (use : Access), s.Inv → stackIsRam s.params →
    (s.push16 w).readByte use (stackAddress s.sp) = highByte w ∧
    (s.push16 w).readByte use (stackAddress (s.sp - 1)) = lowByte w ∧
    (s.push16 w).sp = s.sp - 2 ∧
    (∀ k : Byte, (stackAddress k).toNat = 256 + k.toNat) ∧
    (highByte w).toNat = w.toNat / 256 ∧ (lowByte w).toNat = w.toNat % 256

/-- A byte stored at the pc, at pc + 1 or at pc + 2 is what the next fetch reads there, as the opcode or as an operand byte of
an instruction of one, two or three bytes, the other bytes as they were (R72). Stores one after another change the whole
instruction. -/
def Obligations.FetchSeesTheLastStore : Prop :=
  ∀ (s : State) (v : Byte), s.Inv →
    let op := s.readByte .opcode s.pc
    let low := s.readByte .operandLow (s.pc + 1)
    let high := s.readByte .operandHigh (s.pc + 2)
    (kindAt s.params s.pc = .ram →
      (∀ i, opcodeShape v = some (.one i) → (s.writeByte s.pc v).fetch = .ok i) ∧
      (∀ mk, opcodeShape v = some (.two mk) → (s.writeByte s.pc v).fetch = .ok (mk low)) ∧
      (∀ mk, opcodeShape v = some (.three mk) → (s.writeByte s.pc v).fetch = .ok (mk (joinBytes high low)))) ∧
    (kindAt s.params (s.pc + 1) = .ram →
      (∀ mk, opcodeShape op = some (.two mk) → (s.writeByte (s.pc + 1) v).fetch = .ok (mk v)) ∧
      (∀ mk, opcodeShape op = some (.three mk) → (s.writeByte (s.pc + 1) v).fetch = .ok (mk (joinBytes high v)))) ∧
    (kindAt s.params (s.pc + 2) = .ram →
      ∀ mk, opcodeShape op = some (.three mk) → (s.writeByte (s.pc + 2) v).fetch = .ok (mk (joinBytes v low)))

/-! ### P -/

/-- `setNZ(v)`: N is bit 7 of the byte, Z is 1 exactly when it is 0, no other flag changes (R30). -/
def Obligations.SetNZTakesSignAndZero : Prop :=
  ∀ (v : Byte) (f : Flags),
    (f.setNZ v).n = decide (128 ≤ v.toNat) ∧ (f.setNZ v).z = decide (v = 0) ∧
    (f.setNZ v).v = f.v ∧ (f.setNZ v).d = f.d ∧ (f.setNZ v).i = f.i ∧ (f.setNZ v).c = f.c

/-- The pushed image of P is N V 1 b D I Z C, and pulling it gives the six flags back whatever b was (R65). Bit 5, and
bit 4 of all but BRK, are the spec's own decision: log 16. -/
def Obligations.PushedStatusByteHoldsTheFlags : Prop :=
  ∀ (f : Flags) (b : Bool),
    (f.pByte b).toNat = 128 * f.n.toNat + 64 * f.v.toNat + 32 + 16 * b.toNat + 8 * f.d.toNat + 4 * f.i.toNat
      + 2 * f.z.toNat + f.c.toNat ∧
    flagsOfByte (f.pByte b) = f

/-- No flag changes that the "Effect on Flags" table shows as unchanged, whichever instruction goes on (R35). -/
def Obligations.FlagsChangeOnlyAsTheFlagTableSays : Prop :=
  ∀ (i : Instr) (s t : State), exec i s = .next t →
    ∀ f : FlagName, f ∉ flagsWritten i.mnemonic → flagValue f t.p = flagValue f s.p

/-! ### Operands -/

/-- "DATA" is n in the Immediate form, else the byte at the effective address (R83, R86); and the effective address of every
form (R87 to R94): zero-page sums stay in page 0, the others are mod 65536, a pointer is
read low byte first; at the end of page 0 `ZP_PTR_CROSS` decides. The wraps are the spec's decisions: log 17. -/
def Obligations.OperandAndEffectiveAddressOfEveryForm : Prop :=
  ∀ (s : State) (n : Byte) (nn : Word),
    operandByte (.imm n) s = .ok n ∧
    (∀ m ea, effectiveAddress m s = .ok ea → operandByte (.mem m) s = .ok (s.readByte .data ea)) ∧
    (∀ m r, effectiveAddress m s = .error r → operandByte (.mem m) s = .error r) ∧
    effectiveAddress (.zp n) s = .ok (BitVec.ofNat 16 n.toNat) ∧
    effectiveAddress (.zpx n) s = .ok (BitVec.ofNat 16 ((n.toNat + s.x.toNat) % 256)) ∧
    effectiveAddress (.zpy n) s = .ok (BitVec.ofNat 16 ((n.toNat + s.y.toNat) % 256)) ∧
    effectiveAddress (.abs nn) s = .ok nn ∧
    effectiveAddress (.abx nn) s = .ok (BitVec.ofNat 16 (nn.toNat + s.x.toNat)) ∧
    effectiveAddress (.aby nn) s = .ok (BitVec.ofNat 16 (nn.toNat + s.y.toNat)) ∧
    (let ptr := (n.toNat + s.x.toNat) % 256
     (ptr ≠ 255 → effectiveAddress (.inx n) s = .ok (BitVec.ofNat 16
        (256 * (s.readByte .pointerHigh (BitVec.ofNat 16 (ptr + 1))).toNat
          + (s.readByte .pointerLow (BitVec.ofNat 16 ptr)).toNat))) ∧
     (ptr = 255 → s.params.zpPtrCross = .refuse → effectiveAddress (.inx n) s = .error .zeroPagePointerCross) ∧
     (ptr = 255 → s.params.zpPtrCross = .wrap → effectiveAddress (.inx n) s = .ok (BitVec.ofNat 16
        (256 * (s.readByte .pointerHigh 0x0000#16).toNat + (s.readByte .pointerLow 0x00FF#16).toNat)))) ∧
    (n ≠ 0xFF#8 → effectiveAddress (.iny n) s = .ok (BitVec.ofNat 16
        (256 * (s.readByte .pointerHigh (BitVec.ofNat 16 (n.toNat + 1))).toNat
          + (s.readByte .pointerLow (BitVec.ofNat 16 n.toNat)).toNat + s.y.toNat))) ∧
    (n = 0xFF#8 → s.params.zpPtrCross = .refuse → effectiveAddress (.iny n) s = .error .zeroPagePointerCross) ∧
    (n = 0xFF#8 → s.params.zpPtrCross = .wrap → effectiveAddress (.iny n) s = .ok (BitVec.ofNat 16
        (256 * (s.readByte .pointerHigh 0x0000#16).toNat + (s.readByte .pointerLow 0x00FF#16).toNat + s.y.toNat)))

/-! ### Arithmetic and compare -/

/-- Binary ADC in every form: A + DATA + C mod 256, C the carry, V the signed overflow (R120, R28); nothing else changes
but the pc. -/
def Obligations.BinaryAdcResult : Prop :=
  ∀ (i : Instr) (s : State), i.mnemonic = .adc → ∃ src, i.form = .data src ∧
    ∀ d, operandByte src s = .ok d → s.p.d = false →
      let sum := s.a.toNat + d.toNat + s.p.c.toNat
      let signed := s.a.toInt + d.toInt + s.p.c.toNat
      exec i s = .next { s with
        a := BitVec.ofNat 8 sum
        p := { s.p with
          n := decide (128 ≤ sum % 256)
          v := decide (signed < -128 ∨ 127 < signed)
          z := decide (sum % 256 = 0)
          c := decide (256 ≤ sum) }
        pc := s.pc + BitVec.ofNat 16 src.length }

/-- Binary SBC in every form: A - DATA - (1 - C) mod 256, C = 1 for no borrow, V the signed overflow (R121, R34, R28);
nothing else changes but the pc. -/
def Obligations.BinarySbcResult : Prop :=
  ∀ (i : Instr) (s : State), i.mnemonic = .sbc → ∃ src, i.form = .data src ∧
    ∀ d, operandByte src s = .ok d → s.p.d = false →
      let diff : Int := s.a.toNat - d.toNat - (1 - s.p.c.toNat)
      let signed := s.a.toInt - d.toInt - (1 - s.p.c.toNat)
      exec i s = .next { s with
        a := BitVec.ofInt 8 diff
        p := { s.p with
          n := decide (128 ≤ diff % 256)
          v := decide (signed < -128 ∨ 127 < signed)
          z := decide (diff % 256 = 0)
          c := decide (0 ≤ diff) }
        pc := s.pc + BitVec.ofNat 16 src.length }

/-- Binary SBC of a byte is binary ADC of its complement, in result and flags (R121). -/
def Obligations.SbcIsAdcOfTheComplement : Prop :=
  ∀ (s : State) (d : Byte), subBinary d s = addBinary (~~~d) s

/-- Decimal ADC and SBC of BCD operands in every form: the decimal sum or difference mod 100 in A and the decimal carry, or
no borrow, in C; N, V, Z are any value (log 10) and nothing else changes but the pc (R122). The form refuses only as its address
does, and DECIMAL_MODE = refuse is the statement after this one's. The first two clauses fix `isBcd`, `decimalOf` and `bcdOf`
by the digits. -/
def Obligations.DecimalResultOfBcdOperands : Prop :=
  (∀ v : Byte, isBcd v = (decide (v.toNat / 16 ≤ 9) && decide (v.toNat % 16 ≤ 9)) ∧
    decimalOf v = 10 * (v.toNat / 16) + v.toNat % 16) ∧
  (∀ k < 100, isBcd (bcdOf k) = true ∧ decimalOf (bcdOf k) = k ∧ (bcdOf k).toNat = 16 * (k / 10) + k % 10) ∧
  ∀ (i : Instr) (s : State), i.mnemonic = .adc ∨ i.mnemonic = .sbc → ∃ src, i.form = .data src ∧
    ∀ d, operandByte src s = .ok d → s.p.d = true → s.params.decimalMode ≠ .refuse →
      isBcd s.a = true → isBcd d = true →
      let sum := decimalOf s.a + decimalOf d + s.p.c.toNat
      let diff : Int := decimalOf s.a - decimalOf d - (1 - s.p.c.toNat)
      ∃ n v z : Bool,
        (i.mnemonic = .adc → exec i s = .next { s with
          a := bcdOf (sum % 100)
          p := { s.p with n := n, v := v, z := z, c := decide (100 ≤ sum) }
          pc := s.pc + BitVec.ofNat 16 src.length }) ∧
        (i.mnemonic = .sbc → exec i s = .next { s with
          a := bcdOf (diff % 100).toNat
          p := { s.p with n := n, v := v, z := z, c := decide (0 ≤ diff) }
          pc := s.pc + BitVec.ofNat 16 src.length })

/-- Decimal ADC and SBC in the settings and on the operands that R122 gives no result are refused, each by the
rule's own reason: all of them under `refuse`, operands that are not BCD under `bcdValidOnly` (R122, R12). -/
def Obligations.DecimalArithmeticOutsideBcd : Prop :=
  ∀ (i : Instr) (s : State), i.mnemonic = .adc ∨ i.mnemonic = .sbc → ∃ src, i.form = .data src ∧
    ∀ d, operandByte src s = .ok d → s.p.d = true →
      (s.params.decimalMode = .refuse → exec i s = .refused .decimalRefused) ∧
      (s.params.decimalMode = .bcdValidOnly → (isBcd s.a && isBcd d) = false →
        exec i s = .refused .decimalInvalidBcd)

/-- CMP, CPX and CPY in every form: C is register >= DATA unsigned, Z is equality, N is bit 7 of the difference; the
register, V and everything else stay, whatever D holds (R123 to R125). -/
def Obligations.CompareResult : Prop :=
  ∀ (i : Instr) (s : State) (reg : Byte),
    (i.mnemonic = .cmp ∧ reg = s.a) ∨ (i.mnemonic = .cpx ∧ reg = s.x) ∨ (i.mnemonic = .cpy ∧ reg = s.y) →
    ∃ src, i.form = .data src ∧ ∀ d, operandByte src s = .ok d →
      exec i s = .next { s with
        p := { s.p with
          n := decide (128 ≤ ((reg.toNat : Int) - d.toNat) % 256)
          z := decide (reg = d)
          c := decide (d.toNat ≤ reg.toNat) }
        pc := s.pc + BitVec.ofNat 16 src.length }

/-- The card's table of unsigned comparisons: after `CMP #n`, BCC is taken exactly for A < n, BEQ for A = n, BCS for
A >= n, BNE for A ≠ n, BCC then BNE tell A > n, and BCC then BEQ tell A <= n (R123). -/
def Obligations.CompareThenBranchDecidesUnsignedOrder : Prop :=
  ∀ (s : State) (n k : Byte), ∃ t, exec (.cmpImm n) s = .next t ∧
    exec (.bcc k) t = .next { t with pc := if s.a.toNat < n.toNat then branchTarget k t else t.pc + 2 } ∧
    exec (.beq k) t = .next { t with pc := if s.a = n then branchTarget k t else t.pc + 2 } ∧
    exec (.bcs k) t = .next { t with pc := if n.toNat ≤ s.a.toNat then branchTarget k t else t.pc + 2 } ∧
    exec (.bne k) t = .next { t with pc := if s.a ≠ n then branchTarget k t else t.pc + 2 } ∧
    (n.toNat < s.a.toNat ↔ t.p.c = true ∧ t.p.z = false) ∧
    (s.a.toNat ≤ n.toNat ↔ t.p.c = false ∨ t.p.z = true)

/-! ### Logic, shifts -/

/-- AND, EOR and ORA in every form: the bitwise result in A, N and Z from it, nothing else but the pc (R130 to R132). -/
def Obligations.LogicResult : Prop :=
  ∀ (i : Instr) (s : State) (op : Bool → Bool → Bool),
    (i.mnemonic = .and ∧ op = and) ∨ (i.mnemonic = .eor ∧ op = xor) ∨ (i.mnemonic = .ora ∧ op = or) →
    ∃ src, i.form = .data src ∧ ∀ d, operandByte src s = .ok d →
      ∃ r : Byte, (∀ k, k < 8 → r.getLsbD k = op (s.a.getLsbD k) (d.getLsbD k)) ∧
        exec i s = .next { s with
          a := r
          p := { s.p with n := r.getLsbD 7, z := decide (r = 0) }
          pc := s.pc + BitVec.ofNat 16 src.length }

/-- BIT in both forms: N and V are bits 7 and 6 of DATA, Z is 1 exactly when A & DATA is 0; A and everything else stay
(R133). -/
def Obligations.BitResult : Prop :=
  ∀ (i : Instr) (s : State), i.mnemonic = .bit → ∃ src, i.form = .data src ∧
    ∀ d, operandByte src s = .ok d →
      exec i s = .next { s with
        p := { s.p with n := d.getLsbD 7, v := d.getLsbD 6, z := decide (s.a &&& d = 0) }
        pc := s.pc + BitVec.ofNat 16 src.length }

/-- ASL, LSR, ROL and ROR in every form, ROR on a part that has it: the result in A, or in the byte at the effective address
with A unchanged; N and Z from the result, C the bit shifted out, nothing else but the pc (R140 to R144). -/
def Obligations.ShiftAndRotateResult : Prop :=
  ∀ (i : Instr) (s : State),
    i.mnemonic = .asl ∨ i.mnemonic = .lsr ∨ i.mnemonic = .rol ∨ i.mnemonic = .ror →
    i.wellFormed s.params = true →
    let result : Byte → Byte := fun v => BitVec.ofNat 8 (shiftedValue i.mnemonic v s.p.c)
    let flags : Byte → Flags := fun v => { s.p with
      n := decide (128 ≤ shiftedValue i.mnemonic v s.p.c)
      z := decide (shiftedValue i.mnemonic v s.p.c = 0)
      c := shiftedOutBit i.mnemonic v }
    (i.form = .acc ∧ exec i s = .next { s with a := result s.a, p := flags s.a, pc := s.pc + 1 }) ∨
    (∃ m, i.form = .data (.mem m) ∧ ∀ ea, effectiveAddress m s = .ok ea →
      exec i s = .next { s.writeByte ea (result (s.readByte .data ea)) with
        p := flags (s.readByte .data ea)
        pc := s.pc + BitVec.ofNat 16 (1 + m.operandLength) })

/-- Nine rotations in one direction restore the byte and C (R142, R143). -/
def Obligations.NineRotationsRestoreByteAndCarry : Prop :=
  ∀ (v : Byte) (f : Flags),
    ((fun r : Byte × Flags => rolResult r.1 r.2)^[9] (v, f)).1 = v ∧
    ((fun r : Byte × Flags => rolResult r.1 r.2)^[9] (v, f)).2.c = f.c ∧
    ((fun r : Byte × Flags => rorResult r.1 r.2)^[9] (v, f)).1 = v ∧
    ((fun r : Byte × Flags => rorResult r.1 r.2)^[9] (v, f)).2.c = f.c

/-! ### Branches, flags, increments, jumps -/

/-- Each branch changes the pc alone: to the next instruction, or, on its condition, to that plus the signed displacement,
mod 65536 (R105, R150 to R158; the wrap is the spec's decision, log 17). -/
def Obligations.BranchesGoBySignedDisplacement : Prop :=
  ∀ (s : State) (n : Byte),
    let go : Bool → Host.Outcome State Fault Refusal := fun cond => .next { s with
      pc := BitVec.ofInt 16 (s.pc.toNat + 2 + if cond then n.toInt else 0) }
    exec (.bcc n) s = go (!s.p.c) ∧ exec (.bcs n) s = go s.p.c ∧
    exec (.beq n) s = go s.p.z ∧ exec (.bne n) s = go (!s.p.z) ∧
    exec (.bmi n) s = go s.p.n ∧ exec (.bpl n) s = go (!s.p.n) ∧
    exec (.bvc n) s = go (!s.p.v) ∧ exec (.bvs n) s = go s.p.v

/-- Each flag instruction is one byte and two cycles, writes its one flag with its constant and changes nothing else but
the pc (R160 to R166). CLV's opcode B8 and 2 cycles are general knowledge in the spec: logs 15 and 21. -/
def Obligations.FlagInstructionsWriteOneFlag : Prop :=
  ∀ s : State,
    (encode .clc = [0x18#8] ∧ cyclesOf .clc s = 2 ∧
      exec .clc s = .next { s with p := { s.p with c := false }, pc := s.pc + 1 }) ∧
    (encode .cld = [0xD8#8] ∧ cyclesOf .cld s = 2 ∧
      exec .cld s = .next { s with p := { s.p with d := false }, pc := s.pc + 1 }) ∧
    (encode .cli = [0x58#8] ∧ cyclesOf .cli s = 2 ∧
      exec .cli s = .next { s with p := { s.p with i := false }, pc := s.pc + 1 }) ∧
    (encode .clv = [0xB8#8] ∧ cyclesOf .clv s = 2 ∧
      exec .clv s = .next { s with p := { s.p with v := false }, pc := s.pc + 1 }) ∧
    (encode .sec = [0x38#8] ∧ cyclesOf .sec s = 2 ∧
      exec .sec s = .next { s with p := { s.p with c := true }, pc := s.pc + 1 }) ∧
    (encode .sed = [0xF8#8] ∧ cyclesOf .sed s = 2 ∧
      exec .sed s = .next { s with p := { s.p with d := true }, pc := s.pc + 1 }) ∧
    (encode .sei = [0x78#8] ∧ cyclesOf .sei s = 2 ∧
      exec .sei s = .next { s with p := { s.p with i := true }, pc := s.pc + 1 })

/-- INC and DEC in every form: the byte at the effective address plus or minus one mod 256, N and Z from it, nothing else
but the pc (R170, R173, R144). -/
def Obligations.MemoryIncrementAndDecrementResult : Prop :=
  ∀ (i : Instr) (s : State) (delta : Int),
    (i.mnemonic = .inc ∧ delta = 1) ∨ (i.mnemonic = .dec ∧ delta = -1) →
    ∃ m, i.form = .data (.mem m) ∧ ∀ ea, effectiveAddress m s = .ok ea →
      let r : Int := ((s.readByte .data ea).toNat + delta) % 256
      exec i s = .next { s.writeByte ea (BitVec.ofInt 8 r) with
        p := { s.p with n := decide (128 ≤ r), z := decide (r = 0) }
        pc := s.pc + BitVec.ofNat 16 (1 + m.operandLength) }

/-- INX, INY, DEX and DEY, each one byte and two cycles: the register plus or minus one mod 256, N and Z from it, nothing
else but the pc (R171, R172, R174, R175). The 2 cycles of INX and INY are general knowledge in the spec: log 21. -/
def Obligations.RegisterIncrementAndDecrementResult : Prop :=
  ∀ s : State,
    let flags : Byte → Flags := fun r => { s.p with n := decide (128 ≤ r.toNat), z := decide (r.toNat = 0) }
    let plus : Byte → Byte := fun v => BitVec.ofNat 8 (v.toNat + 1)
    let minus : Byte → Byte := fun v => BitVec.ofNat 8 (v.toNat + 255)
    encode .inx = [0xE8#8] ∧ cyclesOf .inx s = 2 ∧
    exec .inx s = .next { s with x := plus s.x, p := flags (plus s.x), pc := s.pc + 1 } ∧
    encode .iny = [0xC8#8] ∧ cyclesOf .iny s = 2 ∧
    exec .iny s = .next { s with y := plus s.y, p := flags (plus s.y), pc := s.pc + 1 } ∧
    encode .dex = [0xCA#8] ∧ cyclesOf .dex s = 2 ∧
    exec .dex s = .next { s with x := minus s.x, p := flags (minus s.x), pc := s.pc + 1 } ∧
    encode .dey = [0x88#8] ∧ cyclesOf .dey s = 2 ∧
    exec .dey s = .next { s with y := minus s.y, p := flags (minus s.y), pc := s.pc + 1 }

/-- JMP in both forms changes the pc alone. At the last byte of a page, `JMP (nn)` goes or stops as JMP_IND_CROSS says
(R180, R181). -/
def Obligations.JumpsSetThePc : Prop :=
  ∀ (s : State) (nn : Word),
    let target : Word → Word := fun high => BitVec.ofNat 16
      (256 * (s.readByte .pointerHigh high).toNat + (s.readByte .pointerLow nn).toNat)
    exec (.jmpAbs nn) s = .next { s with pc := nn } ∧
    (nn.toNat % 256 ≠ 255 → exec (.jmpInd nn) s = .next { s with pc := target (nn + 1) }) ∧
    (nn.toNat % 256 = 255 → s.params.jmpIndCross = .refuse → exec (.jmpInd nn) s = .refused .jmpIndirectCross) ∧
    (nn.toNat % 256 = 255 → s.params.jmpIndCross = .linear → exec (.jmpInd nn) s = .next { s with pc := target (nn + 1) }) ∧
    (nn.toNat % 256 = 255 → s.params.jmpIndCross = .pageWrap →
      exec (.jmpInd nn) s = .next { s with pc := target (BitVec.ofNat 16 (256 * (nn.toNat / 256))) })

/-- JSR stores the address of its own last byte on the stack, high byte first, and jumps; RTS pulls a word, low byte first,
and goes to it plus one; neither changes a register but S, or a flag; their bytes and cycles (R182, R183). -/
def Obligations.SubroutineCallAndReturnResult : Prop :=
  ∀ (s : State) (nn : Word),
    encode (.jsr nn) = [0x20#8, lowByte nn, highByte nn] ∧ cyclesOf (.jsr nn) s = 6 ∧
    encode .rts = [0x60#8] ∧ cyclesOf .rts s = 6 ∧
    exec (.jsr nn) s = .next
      { (s.writeByte (stackAddress s.sp) (highByte (s.pc + 2))).writeByte (stackAddress (s.sp - 1)) (lowByte (s.pc + 2)) with
        sp := s.sp - 2
        pc := nn } ∧
    exec .rts s = .next { s with
      sp := s.sp + 2
      pc := BitVec.ofNat 16 (256 * (s.readByte .stack (stackAddress (s.sp + 2))).toNat
        + (s.readByte .stack (stackAddress (s.sp + 1))).toNat + 1) }

/-- An RTS with the stack as JSR left it comes back to the instruction after the JSR, with S as it was, wherever the
subroutine is (R182 to R184). -/
def Obligations.RtsReturnsBehindItsJsr : Prop :=
  ∀ (s : State) (nn exitPc : Word), s.Inv → stackIsRam s.params →
    ∃ t u, exec (.jsr nn) s = .next t ∧ exec .rts { t with pc := exitPc } = .next u ∧
      u.pc = s.pc + 3 ∧ u.sp = s.sp ∧ u.a = s.a ∧ u.x = s.x ∧ u.y = s.y ∧ u.p = s.p

/-! ### Loads, stores, stack, transfers -/

/-- LDA, LDX and LDY in every form: DATA into the register, N and Z from it, nothing else but the pc (R190 to R192). -/
def Obligations.LoadResult : Prop :=
  ∀ (i : Instr) (s : State), i.mnemonic = .lda ∨ i.mnemonic = .ldx ∨ i.mnemonic = .ldy →
    ∃ src, i.form = .data src ∧ ∀ d, operandByte src s = .ok d →
      exec i s = .next { s with
        a := if i.mnemonic = .lda then d else s.a
        x := if i.mnemonic = .ldx then d else s.x
        y := if i.mnemonic = .ldy then d else s.y
        p := { s.p with n := decide (128 ≤ d.toNat), z := decide (d = 0) }
        pc := s.pc + BitVec.ofNat 16 src.length }

/-- STA, STX and STY in every form: the register into the byte at the effective address; no register or flag changes but
the pc (R193 to R195). -/
def Obligations.StoreResult : Prop :=
  ∀ (i : Instr) (s : State) (reg : Byte),
    (i.mnemonic = .sta ∧ reg = s.a) ∨ (i.mnemonic = .stx ∧ reg = s.x) ∨ (i.mnemonic = .sty ∧ reg = s.y) →
    ∃ m, i.form = .data (.mem m) ∧ ∀ ea, effectiveAddress m s = .ok ea →
      exec i s = .next { s.writeByte ea reg with pc := s.pc + BitVec.ofNat 16 (1 + m.operandLength) }

/-- The frame of the storing forms: STA, STX, STY, INC, DEC and the memory forms of the shifts leave every byte of memory
but the one at the effective address as it was (R42, R144, R193 to R195). -/
def Obligations.StoresChangeOnlyTheEffectiveAddress : Prop :=
  ∀ (i : Instr) (s t : State) (m : MemForm) (ea : Word),
    i.mnemonic ∈ [.sta, .stx, .sty, .inc, .dec, .asl, .lsr, .rol, .ror] →
    i.form = .data (.mem m) → effectiveAddress m s = .ok ea → exec i s = .next t →
    ∀ use addr, cellOf s.params addr ≠ cellOf s.params ea → t.readByte use addr = s.readByte use addr

/-- The frame of the pushing instructions: PHA and PHP leave every byte but the one at 0x0100 + S, JSR every byte but the
two there, BRK every byte but the three there (R60, R62, R200, R201, R182, R215). -/
def Obligations.PushesChangeOnlyTheirStackBytes : Prop :=
  ∀ (i : Instr) (s t : State) (count : Nat),
    ((i = .pha ∨ i = .php) ∧ count = 1) ∨ (i.mnemonic = .jsr ∧ count = 2) ∨ (i = .brk ∧ count = 3) →
    exec i s = .next t →
    ∀ use addr, (∀ k, k < count → cellOf s.params addr ≠ cellOf s.params (stackAddress (s.sp - BitVec.ofNat 8 k))) →
      t.readByte use addr = s.readByte use addr

/-- The frame of registers and memory: an instruction changes only what its row of the register-use table says, and no
instruction touches the input lines, the NMI latch, the parameters, the turn or the cycle observer; memory that no row
names reads as before at every address (R42). -/
def Obligations.InstructionsChangeOnlyWhatTheUseTableSays : Prop :=
  ∀ (i : Instr) (s t : State), exec i s = .next t →
    (∀ r, r ∉ resourcesWritten i → sameResource r s t) ∧
    (Resource.memory ∉ resourcesWritten i → ∀ use addr, t.readByte use addr = s.readByte use addr) ∧
    t.nmiPending = s.nmiPending ∧ t.inputs = s.inputs ∧ t.params = s.params ∧ t.turn = s.turn ∧ t.cycles = s.cycles

/-- PHA and PHP store at 0x0100 + S and take S one down; PLA and PLP take S one up and read there; PLA writes N and Z, PLP
the six flags, and nothing else changes but the pc; their bytes and cycles (R200 to R203). The image of P is log 16's. -/
def Obligations.PushAndPullInstructionResult : Prop :=
  ∀ s : State,
    let pulled := s.readByte .stack (stackAddress (s.sp + 1))
    encode .pha = [0x48#8] ∧ cyclesOf .pha s = 3 ∧
    exec .pha s = .next { s.writeByte (stackAddress s.sp) s.a with sp := s.sp - 1, pc := s.pc + 1 } ∧
    encode .php = [0x08#8] ∧ cyclesOf .php s = 3 ∧
    exec .php s = .next { s.writeByte (stackAddress s.sp) (s.p.pByte true) with sp := s.sp - 1, pc := s.pc + 1 } ∧
    encode .pla = [0x68#8] ∧ cyclesOf .pla s = 4 ∧
    exec .pla s = .next { s with
      a := pulled
      sp := s.sp + 1
      p := { s.p with n := decide (128 ≤ pulled.toNat), z := decide (pulled = 0) }
      pc := s.pc + 1 } ∧
    encode .plp = [0x28#8] ∧ cyclesOf .plp s = 4 ∧
    exec .plp s = .next { s with
      sp := s.sp + 1
      p := { n := pulled.getLsbD 7, v := pulled.getLsbD 6, d := pulled.getLsbD 3, i := pulled.getLsbD 2,
             z := pulled.getLsbD 1, c := pulled.getLsbD 0 }
      pc := s.pc + 1 }

/-- PHP then PLP leaves P and S unchanged, whatever the code between did to P (R203). -/
def Obligations.PlpRestoresWhatPhpPushed : Prop :=
  ∀ (s : State) (f : Flags) (a : Byte), s.Inv → stackIsRam s.params →
    ∃ t u, exec .php s = .next t ∧ exec .plp { t with p := f, a := a } = .next u ∧ u.p = s.p ∧ u.sp = s.sp ∧ u.a = a

/-- NOP and the six transfers, each one byte and two cycles: all but TXS write N and Z from the byte moved, TXS writes no flag,
NOP writes nothing, and nothing else changes but the pc (R204 to R209, R217). -/
def Obligations.TransferAndNopResult : Prop :=
  ∀ s : State,
    let flags : Byte → Flags := fun r => { s.p with n := decide (128 ≤ r.toNat), z := decide (r = 0) }
    (encode .tax = [0xAA#8] ∧ cyclesOf .tax s = 2 ∧
      exec .tax s = .next { s with x := s.a, p := flags s.a, pc := s.pc + 1 }) ∧
    (encode .tay = [0xA8#8] ∧ cyclesOf .tay s = 2 ∧
      exec .tay s = .next { s with y := s.a, p := flags s.a, pc := s.pc + 1 }) ∧
    (encode .tsx = [0xBA#8] ∧ cyclesOf .tsx s = 2 ∧
      exec .tsx s = .next { s with x := s.sp, p := flags s.sp, pc := s.pc + 1 }) ∧
    (encode .txa = [0x8A#8] ∧ cyclesOf .txa s = 2 ∧
      exec .txa s = .next { s with a := s.x, p := flags s.x, pc := s.pc + 1 }) ∧
    (encode .txs = [0x9A#8] ∧ cyclesOf .txs s = 2 ∧
      exec .txs s = .next { s with sp := s.x, pc := s.pc + 1 }) ∧
    (encode .tya = [0x98#8] ∧ cyclesOf .tya s = 2 ∧
      exec .tya s = .next { s with a := s.y, p := flags s.y, pc := s.pc + 1 }) ∧
    (encode .nop = [0xEA#8] ∧ cyclesOf .nop s = 2 ∧ exec .nop s = .next { s with pc := s.pc + 1 })

/-! ### System, interrupts, reset -/

/-- BRK goes on whatever I holds: I becomes 1, no other flag and no register but S and the pc changes, S is three less, the
pc comes from the IRQ vector as memory then is, and on a stack of RAM the three bytes at 0x0100 + S downward are the return
address plus 1, high byte first, and P with bits 5 and 4 set and the old I (R215, R230; the image of P: log 16). -/
def Obligations.BrkEntersThroughTheIrqVector : Prop :=
  ∀ s : State, ∃ t, exec .brk s = .next t ∧
    t.p = { s.p with i := true } ∧ t.sp = s.sp - 3 ∧ t.a = s.a ∧ t.x = s.x ∧ t.y = s.y ∧
    t.nmiPending = s.nmiPending ∧
    t.pc = joinBytes (t.readByte .vectorHigh 0xFFFF#16) (t.readByte .vectorLow 0xFFFE#16) ∧
    (s.Inv → stackIsRam s.params → ∀ use,
      t.readByte use (stackAddress s.sp) = highByte (s.pc + 2) ∧
      t.readByte use (stackAddress (s.sp - 1)) = lowByte (s.pc + 2) ∧
      t.readByte use (stackAddress (s.sp - 2)) = s.p.pByte true)

/-- RTI, one byte and six cycles, pulls P, then PC low, then PC high, with no increment; no other register changes
(R216). -/
def Obligations.RtiPullsStatusThenPc : Prop :=
  ∀ s : State,
    let pulled := s.readByte .stack (stackAddress (s.sp + 1))
    encode .rti = [0x40#8] ∧ cyclesOf .rti s = 6 ∧
    exec .rti s = .next { s with
      sp := s.sp + 3
      p := { n := pulled.getLsbD 7, v := pulled.getLsbD 6, d := pulled.getLsbD 3, i := pulled.getLsbD 2,
             z := pulled.getLsbD 1, c := pulled.getLsbD 0 }
      pc := joinBytes (s.readByte .stack (stackAddress (s.sp + 3))) (s.readByte .stack (stackAddress (s.sp + 2))) }

/-- The IRQ entry: with RES and NMI quiet, the line low and I = 0, the step takes the exception: the pc of the unexecuted
instruction and P with bit 4 = 0 on the stack, I = 1, the pc from 0xFFFE; no other flag or register changes (R224, R229,
R230; the image of P: log 16). P is that after the boundary, at which a driven S.O. pin may change V alone
(`BoundaryChangesNoRegister`; log 18). -/
def Obligations.IrqEntryTakesTheException : Prop :=
  ∀ s : State, s.lines.res = false → s.nmiPending = false → s.lines.nmiFell = false →
    s.lines.irqLow = true → s.p.i = false →
    ∃ t, step s = .next t ∧
      t.p = { s.atBoundary.p with i := true } ∧ t.sp = s.sp - 3 ∧ t.a = s.a ∧ t.x = s.x ∧ t.y = s.y ∧ t.nmiPending = false ∧
      t.pc = joinBytes (t.readByte .vectorHigh 0xFFFF#16) (t.readByte .vectorLow 0xFFFE#16) ∧
      (s.Inv → stackIsRam s.params → ∀ use,
        t.readByte use (stackAddress s.sp) = highByte s.pc ∧
        t.readByte use (stackAddress (s.sp - 1)) = lowByte s.pc ∧
        t.readByte use (stackAddress (s.sp - 2)) = s.atBoundary.p.pByte false)

/-- The NMI entry: with RES quiet and an edge remembered or just seen, the step takes the exception through 0xFFFA whatever
I and the IRQ line are, and clears the latch (R225, R227, R229, R230; the image of P: log 16). P is that after the boundary,
at which a driven S.O. pin may change V alone (`BoundaryChangesNoRegister`; log 18). -/
def Obligations.NmiEntryTakesTheException : Prop :=
  ∀ s : State, s.lines.res = false → s.nmiPending = true ∨ s.lines.nmiFell = true →
    ∃ t, step s = .next t ∧
      t.p = { s.atBoundary.p with i := true } ∧ t.sp = s.sp - 3 ∧ t.a = s.a ∧ t.x = s.x ∧ t.y = s.y ∧ t.nmiPending = false ∧
      t.pc = joinBytes (t.readByte .vectorHigh 0xFFFB#16) (t.readByte .vectorLow 0xFFFA#16) ∧
      (s.Inv → stackIsRam s.params → ∀ use,
        t.readByte use (stackAddress s.sp) = highByte s.pc ∧
        t.readByte use (stackAddress (s.sp - 1)) = lowByte s.pc ∧
        t.readByte use (stackAddress (s.sp - 2)) = s.atBoundary.p.pByte false)

/-- RES overrides everything: I = 1, no NMI pending, the pc from 0xFFFC, nothing written to memory or handed to the
platform; the other registers and flags are left open (log 3; R226, R227, R250). -/
def Obligations.ResetSequenceGoesThroughTheResVector : Prop :=
  ∀ s : State, s.lines.res = true →
    ∃ t, step s = .next t ∧ t.p.i = true ∧ t.nmiPending = false ∧ t.mem = s.mem ∧ t.outputs = s.outputs ∧
      t.params = s.params ∧
      t.pc = joinBytes (t.readByte .vectorHigh 0xFFFD#16) (t.readByte .vectorLow 0xFFFC#16)

/-- An RTI with the stack as an entry left it, of BRK, IRQ or NMI, goes to the very address that the entry pushed and restores
the flags, I among them, and S (R216, R233): after IRQ and NMI that is the pc of the interrupted program, after a BRK at `a`
it is a + 2 (R215, R256). A, X and Y are as the handler leaves them. -/
def Obligations.RtiResumesTheInterruptedProgram : Prop :=
  ∀ (s : State) (exitPc : Word) (a x y : Byte) (f : Flags), s.Inv → stackIsRam s.params →
    (∀ (b : Bool) (ret vector : Word), ∃ u,
      exec .rti { s.takeException b ret vector with a := a, x := x, y := y, p := f, pc := exitPc } = .next u ∧
      u.pc = ret ∧ u.p = s.p ∧ u.sp = s.sp ∧ u.a = a ∧ u.x = x ∧ u.y = y) ∧
    (∃ t u, exec .brk s = .next t ∧
      exec .rti { t with a := a, x := x, y := y, p := f, pc := exitPc } = .next u ∧
      u.pc = s.pc + 2 ∧ u.p = s.p ∧ u.sp = s.sp ∧ u.a = a ∧ u.x = x ∧ u.y = y)

/-- An NMI that is remembered or seen at a boundary is taken there, through its vector with its frame pushed, or dropped there
by a RES, which goes through the RES vector; so no step leaves the latch set (R225, R226, R228, R229, R250). That an edge
reaches the latch only as a boundary's sample is the model's choice (log 13): an edge during an entry (T-X7) is the sample of
the boundary after it. The order of the requests is the spec's decision (log 14). -/
def Obligations.NoStepLeavesTheNmiLatchSet : Prop :=
  ∀ s t : State, step s = .next t →
    t.nmiPending = false ∧
    (s.nmiPending = true ∨ s.lines.nmiFell = true →
      (s.lines.res = false ∧ t.sp = s.sp - 3 ∧
        t.pc = joinBytes (t.readByte .vectorHigh 0xFFFB#16) (t.readByte .vectorLow 0xFFFA#16)) ∨
      (s.lines.res = true ∧ t.mem = s.mem ∧ t.outputs = s.outputs ∧
        t.pc = joinBytes (t.readByte .vectorHigh 0xFFFD#16) (t.readByte .vectorLow 0xFFFC#16)))

/-- D is changed only at a boundary that leads to an instruction, and only by CLD, SED, PLP and RTI: neither BRK nor an
interrupt entry changes it (R258); reset leaves it open (R40). -/
def Obligations.DecimalFlagIsSticky : Prop :=
  ∀ s t : State, step s = .next t → s.lines.res = false → t.p.d ≠ s.p.d →
    s.event = .instruction ∧ ∃ i, s.atBoundary.fetch = .ok i ∧ i.mnemonic ∈ [.cld, .sed, .plp, .rti]

/-- When the bytes at the pc decode to an instruction that the part has and no line is recognised, the step is that
instruction at the state after the boundary, with its cycles counted (R23, R75, R228). -/
def Obligations.StepRunsTheDecodedInstruction : Prop :=
  ∀ (s : State) (i : Instr) (rest : List Byte), s.lines.res = false → s.nmiPending = false → s.lines.nmiFell = false →
    (s.lines.irqLow = true → s.p.i = true) →
    decode [s.atBoundary.readByte .opcode s.pc, s.atBoundary.readByte .operandLow (s.pc + 1),
      s.atBoundary.readByte .operandHigh (s.pc + 2)] = .ok (i, rest) →
    i.wellFormed s.params = true →
    step s = spendOn (cyclesOf i s.atBoundary) (exec i s.atBoundary)

/-- A boundary before an instruction uses up one sample of the lines and begins a turn; without a driven S.O. pin it
changes no register and no flag, with one it may change V alone (R228, R28; the pin: D19, log 18). -/
def Obligations.BoundaryChangesNoRegister : Prop :=
  ∀ s : State,
    s.atBoundary = { s with
      inputs := s.inputs.tail
      nmiPending := s.nmiPending || s.lines.nmiFell
      turn := s.turn + 1
      p := { s.p with v := s.atBoundary.p.v } } ∧
    (s.params.soPinUsed = false → s.atBoundary.p.v = s.p.v)

/-- What the spec gives of the state after reset: I = 1, no NMI pending, the pc from the RES vector (R40, R250), and
the parameters to which R7 gives a default. -/
def Obligations.ResetStateIsTheSpecs : Prop :=
  State.reset.p.i = true ∧ State.reset.nmiPending = false ∧
  State.reset.pc = joinBytes (State.reset.mem.read 0xFFFD) (State.reset.mem.read 0xFFFC) ∧
  State.reset.params.hasRor = true ∧ State.reset.params.stackInPageZero = false ∧
  State.reset.params.zpPtrCross = .refuse ∧ State.reset.params.jmpIndCross = .refuse ∧
  State.reset.params.decimalMode = .bcdValidOnly ∧ State.reset.params.soPinUsed = false

/-! ### The whole machine -/

/-- The state after reset meets the invariant. -/
def Obligations.ResetMeetsTheInvariant : Prop := State.reset.Inv

/-- Every step keeps the invariant: memory canonical and only where RAM or ROM stands, output events only where neither
does (R50, R51). -/
def Obligations.StepKeepsTheInvariant : Prop :=
  ∀ s t : State, s.Inv → step s = .next t → t.Inv

/-- No step changes a parameter or a byte of ROM (R7, R51, R74). -/
def Obligations.StepKeepsParametersAndRom : Prop :=
  ∀ s t : State, step s = .next t → t.params = s.params ∧
    ∀ use addr, kindAt s.params addr = .rom → t.readByte use addr = s.readByte use addr

/-- Under the parameters that refuse least, every instruction goes on from every state but an ADC or SBC that takes a byte
which is not BCD in decimal mode, which is refused; and a step stops on that or on an undefined opcode byte only (R12, R122,
R220). -/
def Obligations.OnlyNonBcdStopsAnInstructionUnderRefusesLeast : Prop :=
  ∀ s : State, refusesLeast s.params →
    (∀ i : Instr, ¬ takesNonBcd i s → ∃ t, exec i s = .next t) ∧
    (∀ i : Instr, takesNonBcd i s → exec i s = .refused .decimalInvalidBcd) ∧
    (∀ r, step s = .refused r → s.event = .instruction ∧
      ((opcodeShape (s.atBoundary.readByte .opcode s.pc) = none ∧
          r = .undefinedOpcode (s.atBoundary.readByte .opcode s.pc)) ∨
        (r = .decimalInvalidBcd ∧ ∃ i, s.atBoundary.fetch = .ok i ∧ takesNonBcd i s.atBoundary)))

/-- Under any parameters, an instruction stops only with a reason of the spec's list and only where that reason's rule
allows it (R12, R8, R88, R89, R122, R181); and it does stop where ROR is missing and where its address is refused: an
instruction of the form `(n,X)` or `(n),Y` with its pointer at 0xFF under `ZP_PTR_CROSS = refuse`. For a decimal ADC or SBC
that R122 refuses as well, that the pointer's refusal is the one reported is the model's choice (log 9). `JMP (nn)` and
decimal arithmetic stop as `JumpsSetThePc` and `DecimalArithmeticOutsideBcd` say. -/
def Obligations.InstructionsStopOnlyForTheSpecsReasons : Prop :=
  (∀ (i : Instr) (s : State) (m : MemForm) (r : Refusal),
    i.form = .data (.mem m) → effectiveAddress m s = .error r → exec i s = .refused r) ∧
  (∀ (i : Instr) (s : State) (n : Byte), s.params.zpPtrCross = .refuse →
    (i.form = .data (.mem (.inx n)) ∧ n + s.x = 0xFF#8) ∨ (i.form = .data (.mem (.iny n)) ∧ n = 0xFF#8) →
    exec i s = .refused .zeroPagePointerCross) ∧
  (∀ (i : Instr) (s : State), i.mnemonic = .ror → s.params.hasRor = false →
    exec i s = .refused (.undefinedOpcode i.opcode)) ∧
  ∀ (i : Instr) (s : State) (r : Refusal), exec i s = .refused r →
    (i.mnemonic = .ror ∧ s.params.hasRor = false ∧ r = .undefinedOpcode i.opcode) ∨
    (s.params.zpPtrCross = .refuse ∧ r = .zeroPagePointerCross ∧
      ∃ n, i.form = .data (.mem (.inx n)) ∧ n + s.x = 0xFF#8 ∨ i.form = .data (.mem (.iny n)) ∧ n = 0xFF#8) ∨
    (s.params.jmpIndCross = .refuse ∧ r = .jmpIndirectCross ∧ ∃ nn, i = .jmpInd nn ∧ lowByte nn = 0xFF#8) ∨
    ((i.mnemonic = .adc ∨ i.mnemonic = .sbc) ∧ s.p.d = true ∧
      ((s.params.decimalMode = .refuse ∧ r = .decimalRefused) ∨
       (s.params.decimalMode = .bcdValidOnly ∧ r = .decimalInvalidBcd ∧
        ∃ src d, i.form = .data src ∧ operandByte src s = .ok d ∧ (isBcd s.a && isBcd d) = false)))

/-! ### Timing -/

/-- A branch takes 2 cycles not taken, 3 taken within the page of the next instruction, 4 taken to another (R262; which
addresses are compared is the spec's reading). -/
def Obligations.BranchCyclesByPage : Prop :=
  ∀ (i : Instr) (n : Byte) (s : State), i.form = .rel n →
    ∃ t, exec i s = .next t ∧
      (branchTaken i.mnemonic s.p = false → cyclesOf i s = 2 ∧ t.pc = s.pc + 2) ∧
      (branchTaken i.mnemonic s.p = true →
        t.pc = branchTarget n s ∧
        cyclesOf i s = if t.pc.toNat / 256 = (s.pc + 2).toNat / 256 then 3 else 4)

/-- The cycle count of every opcode but the branches, and of the entries (R260), with the "+" of R263: on a read-class
instruction of the forms `nn,X`, `nn,Y` and `(n),Y`, one cycle more exactly when the base and the effective address differ in
their high byte, which is when the low byte of the base plus the index is 256 or more; the other counts depend on no state.
Some of the counts, and the 7 of the entries, are general knowledge in R260 (log 21). -/
def Obligations.CycleCountsOfEveryClassAndForm : Prop :=
  let reads : List Mnemonic := [.adc, .and, .bit, .cmp, .cpx, .cpy, .eor, .lda, .ldx, .ldy, .ora, .sbc]
  let stores : List Mnemonic := [.sta, .stx, .sty]
  let modifies : List Mnemonic := [.asl, .dec, .inc, .lsr, .rol, .ror]
  let registerOnly : List Mnemonic := [.clc, .cld, .cli, .clv, .sec, .sed, .sei, .dex, .dey, .inx, .iny, .nop,
    .tax, .tay, .tsx, .txa, .txs, .tya]
  (∀ (base : Word) (index : Byte),
    highByte (base + zeroExtend16 index) ≠ highByte base ↔ 256 ≤ (lowByte base).toNat + index.toNat) ∧
  (∀ (i : Instr) (s : State) (n : Byte) (nn : Word),
    (i.mnemonic ∈ reads →
      (i.form = .data (.imm n) → cyclesOf i s = 2) ∧
      (i.form = .data (.mem (.zp n)) → cyclesOf i s = 3) ∧
      (i.form = .data (.mem (.zpx n)) ∨ i.form = .data (.mem (.zpy n)) → cyclesOf i s = 4) ∧
      (i.form = .data (.mem (.abs nn)) → cyclesOf i s = 4) ∧
      (i.form = .data (.mem (.abx nn)) →
        cyclesOf i s = 4 + if highByte (nn + zeroExtend16 s.x) = highByte nn then 0 else 1) ∧
      (i.form = .data (.mem (.aby nn)) →
        cyclesOf i s = 4 + if highByte (nn + zeroExtend16 s.y) = highByte nn then 0 else 1) ∧
      (i.form = .data (.mem (.inx n)) → cyclesOf i s = 6) ∧
      (∀ base, i.form = .data (.mem (.iny n)) → zeroPagePointer n s = .ok base →
        cyclesOf i s = 5 + if highByte (base + zeroExtend16 s.y) = highByte base then 0 else 1)) ∧
    (i.mnemonic ∈ stores →
      (i.form = .data (.mem (.zp n)) → cyclesOf i s = 3) ∧
      (i.form = .data (.mem (.zpx n)) ∨ i.form = .data (.mem (.zpy n)) → cyclesOf i s = 4) ∧
      (i.form = .data (.mem (.abs nn)) → cyclesOf i s = 4) ∧
      (i.form = .data (.mem (.abx nn)) ∨ i.form = .data (.mem (.aby nn)) → cyclesOf i s = 5) ∧
      (i.form = .data (.mem (.inx n)) ∨ i.form = .data (.mem (.iny n)) → cyclesOf i s = 6)) ∧
    (i.mnemonic ∈ modifies →
      (i.form = .acc → cyclesOf i s = 2) ∧
      (i.form = .data (.mem (.zp n)) → cyclesOf i s = 5) ∧
      (i.form = .data (.mem (.zpx n)) → cyclesOf i s = 6) ∧
      (i.form = .data (.mem (.abs nn)) → cyclesOf i s = 6) ∧
      (i.form = .data (.mem (.abx nn)) → cyclesOf i s = 7)) ∧
    (i.mnemonic ∈ registerOnly → cyclesOf i s = 2) ∧
    cyclesOf .pha s = 3 ∧ cyclesOf .php s = 3 ∧ cyclesOf .pla s = 4 ∧ cyclesOf .plp s = 4 ∧
    cyclesOf (.jsr nn) s = 6 ∧ cyclesOf .rts s = 6 ∧ cyclesOf .rti s = 6 ∧ cyclesOf .brk s = 7 ∧
    cyclesOf (.jmpAbs nn) s = 3 ∧ cyclesOf (.jmpInd nn) s = 5 ∧
    (i.mnemonic ∈ stores ∨ i.mnemonic ∈ modifies ∨
      (i.mnemonic ∈ reads ∧ ∀ nn n, i.form ≠ .data (.mem (.abx nn)) ∧ i.form ≠ .data (.mem (.aby nn)) ∧
        i.form ≠ .data (.mem (.iny n))) →
      ∀ s' : State, cyclesOf i s' = cyclesOf i s)) ∧
  (∀ s : State, s.event ≠ .instruction → ∃ t, step s = .next t ∧ t.cycles = s.cycles + 7)

/-- The cycle observer is read by nothing: two states that differ in it alone have the same outcome but for it (R264). -/
def Obligations.CycleObserverInfluencesNothing : Prop :=
  ∀ (s : State) (k : Nat),
    step { s with cycles := k } =
      match step s with
      | .next t => .next { t with cycles := k + (t.cycles - s.cycles) }
      | .fault r => .fault r
      | .refused r => .refused r
end

