-- ==== Sys2Proof/Laws/Bytes.lean ====
section
/-! SUPPORT. The byte-order and sign-extension helpers as numbers. -/

namespace Sys2Proof

theorem toNat_joinBytes (hi lo : Byte) : (joinBytes hi lo).toNat = 256 * hi.toNat + lo.toNat := by
  have h := lo.isLt
  rw [joinBytes, BitVec.toNat_append, ← Nat.shiftLeft_add_eq_or_of_lt h, Nat.shiftLeft_eq]
  omega

theorem toNat_highByte (w : Word) : (highByte w).toNat = w.toNat / 256 := by
  have h := w.isLt
  simp only [highByte, BitVec.extractLsb'_toNat, Nat.shiftRight_eq_div_pow]
  omega

theorem toNat_lowByte (w : Word) : (lowByte w).toNat = w.toNat % 256 := by
  simp [lowByte, BitVec.extractLsb'_toNat]

@[simp] theorem highByte_joinBytes (hi lo : Byte) : highByte (joinBytes hi lo) = hi := by
  have h := lo.isLt
  apply BitVec.eq_of_toNat_eq
  rw [toNat_highByte, toNat_joinBytes]
  omega

@[simp] theorem lowByte_joinBytes (hi lo : Byte) : lowByte (joinBytes hi lo) = lo := by
  have h := lo.isLt
  apply BitVec.eq_of_toNat_eq
  rw [toNat_lowByte, toNat_joinBytes]
  omega

@[simp] theorem joinBytes_split (w : Word) : joinBytes (highByte w) (lowByte w) = w := by
  apply BitVec.eq_of_toNat_eq
  rw [toNat_joinBytes, toNat_highByte, toNat_lowByte]
  omega

theorem joinBytes_eq_ofNat (hi lo : Byte) : joinBytes hi lo = BitVec.ofNat 16 (256 * hi.toNat + lo.toNat) := by
  apply BitVec.eq_of_toNat_eq
  have h := hi.isLt
  have h' := lo.isLt
  rw [toNat_joinBytes, BitVec.toNat_ofNat]
  omega

theorem toNat_zeroExtend16 (v : Byte) : (zeroExtend16 v).toNat = v.toNat := by
  have h := v.isLt
  simp only [zeroExtend16, BitVec.toNat_setWidth]
  omega

theorem toInt_signExtend16 (v : Byte) : (signExtend16 v).toInt = v.toInt := by
  simp [signExtend16, BitVec.toInt_signExtend_of_le]

end Sys2Proof
end

