-- ==== Sys2Proof/Laws/Memory.lean ====
section
/-! SUPPORT. The laws of memory: a read after a write, and the canonical form kept. -/

namespace Sys2Proof.Machine

@[simp] theorem Memory.read_nil (a : Nat) : Memory.read [] a = unlistedByte := rfl

@[simp] theorem Memory.read_cons (k : Nat) (v : Byte) (m : Memory) (a : Nat) :
    Memory.read ((k, v) :: m) a = if k = a then v else Memory.read m a := rfl

theorem Memory.read_consCell_other (a c : Nat) (v : Byte) (m : Memory) (h : c ≠ a) :
    (Memory.consCell a v m).read c = m.read c := by
  unfold Memory.consCell
  split
  · rfl
  · simp [Ne.symm h]

theorem Memory.read_of_above (k : Nat) (m : Memory) (h : m.above k = true) : m.read k = unlistedByte := by
  induction m with
  | nil => rfl
  | cons c m ih =>
    obtain ⟨a, v⟩ := c
    simp only [Memory.above, List.all_cons, Bool.and_eq_true, decide_eq_true_eq] at h
    rw [Memory.read_cons, if_neg (by omega), ih h.2]

theorem Memory.above_trans {j k : Nat} {m : Memory} (hjk : j ≤ k) (h : m.above k = true) : m.above j = true := by
  simp only [Memory.above, List.all_eq_true, decide_eq_true_eq] at *
  exact fun c hc => Nat.lt_of_le_of_lt hjk (h c hc)

theorem Memory.read_consCell_self (a : Nat) (v : Byte) (m : Memory) (h : m.above a = true) :
    (Memory.consCell a v m).read a = v := by
  unfold Memory.consCell
  split
  · next hv => rw [Memory.read_of_above a m h, hv]
  · simp

theorem Memory.wf_cons_iff (k : Nat) (v : Byte) (m : Memory) :
    Memory.wf ((k, v) :: m) = true ↔ k < 65536 ∧ v ≠ unlistedByte ∧ m.above k = true ∧ m.wf = true := by
  simp [Memory.wf, and_assoc]

theorem Memory.wf_consCell (a : Nat) (v : Byte) (m : Memory) (ha : a < 65536) (hm : m.wf = true)
    (h : m.above a = true) : (Memory.consCell a v m).wf = true := by
  unfold Memory.consCell
  split
  · exact hm
  · next hv => exact (Memory.wf_cons_iff a v m).2 ⟨ha, hv, h, hm⟩

theorem Memory.above_consCell {a k : Nat} {v : Byte} {m : Memory} (hk : k < a) (h : m.above k = true) :
    (Memory.consCell a v m).above k = true := by
  unfold Memory.consCell
  split
  · exact h
  · simpa [Memory.above, hk] using h

theorem Memory.above_write {a k : Nat} {v : Byte} (m : Memory) (hk : k < a) (h : m.above k = true) :
    (m.write a v).above k = true := by
  induction m with
  | nil => exact Memory.above_consCell hk rfl
  | cons c m ih =>
    obtain ⟨j, w⟩ := c
    have hj : k < j ∧ Memory.above k m = true := by simpa [Memory.above] using h
    unfold Memory.write
    split
    · exact Memory.above_consCell hk h
    · split
      · exact Memory.above_consCell hk hj.2
      · simpa [Memory.above, hj.1] using ih hj.2

/-- A write keeps the canonical form. -/
theorem Memory.wf_write (m : Memory) (a : Nat) (v : Byte) (ha : a < 65536) (hm : m.wf = true) :
    (m.write a v).wf = true := by
  induction m with
  | nil => exact Memory.wf_consCell a v [] ha rfl rfl
  | cons c m ih =>
    obtain ⟨k, w⟩ := c
    obtain ⟨hk, hw, hab, hwf⟩ := (Memory.wf_cons_iff k w m).1 hm
    unfold Memory.write
    split
    · next hlt =>
      refine Memory.wf_consCell a v _ ha hm ?_
      simpa [Memory.above, hlt] using Memory.above_trans (Nat.le_of_lt hlt) hab
    · split
      · next heq => exact Memory.wf_consCell a v m ha hwf (heq ▸ hab)
      · exact (Memory.wf_cons_iff k w _).2 ⟨hk, hw, Memory.above_write m (by omega) hab, ih hwf⟩

/-- A write leaves every other address as it was, in any memory. -/
theorem Memory.read_write_other (m : Memory) (a c : Nat) (v : Byte) (h : c ≠ a) : (m.write a v).read c = m.read c := by
  induction m with
  | nil => exact Memory.read_consCell_other a c v [] h
  | cons x m ih =>
    obtain ⟨k, w⟩ := x
    unfold Memory.write
    split
    · exact Memory.read_consCell_other a c v _ h
    · split
      · next heq =>
        rw [Memory.read_consCell_other a c v _ h, Memory.read_cons, if_neg (by omega)]
      · simp [ih]

/-- A canonical memory reads back what was written. -/
theorem Memory.read_write_self (m : Memory) (a : Nat) (v : Byte) (hm : m.wf = true) : (m.write a v).read a = v := by
  induction m with
  | nil => exact Memory.read_consCell_self a v [] rfl
  | cons x m ih =>
    obtain ⟨k, w⟩ := x
    obtain ⟨-, -, hab, hwf⟩ := (Memory.wf_cons_iff k w m).1 hm
    unfold Memory.write
    split
    · next hlt =>
      refine Memory.read_consCell_self a v _ ?_
      simpa [Memory.above, hlt] using Memory.above_trans (Nat.le_of_lt hlt) hab
    · split
      · next heq => exact Memory.read_consCell_self a v m (heq ▸ hab)
      · next hne => rw [Memory.read_cons, if_neg (Ne.symm hne), ih hwf]

/-- A write lists no address but its own that was not listed before. -/
theorem Memory.mem_write {m : Memory} {a : Nat} {v : Byte} {c : Host.Cell} (h : c ∈ m.write a v) :
    c ∈ m ∨ c.1 = a := by
  induction m with
  | nil =>
    simp only [Memory.write, Memory.consCell] at h
    split at h
    · exact .inl h
    · exact .inr (by simp_all)
  | cons x m ih =>
    obtain ⟨k, w⟩ := x
    unfold Memory.write at h
    simp only [Memory.consCell] at h
    split at h
    · split at h
      · exact .inl h
      · rcases List.mem_cons.1 h with rfl | h
        · exact .inr rfl
        · exact .inl h
    · split at h
      · split at h
        · exact .inl (List.mem_cons_of_mem _ h)
        · rcases List.mem_cons.1 h with rfl | h
          · exact .inr rfl
          · exact .inl (List.mem_cons_of_mem _ h)
      · rcases List.mem_cons.1 h with rfl | h
        · exact .inl (by simp)
        · rcases ih h with h | h
          · exact .inl (List.mem_cons_of_mem _ h)
          · exact .inr h

end Sys2Proof.Machine
end

