-- ==== Sys2Proof/Laws/State.lean ====
section
/-! SUPPORT. One lemma per field of State for every named update. -/

namespace Sys2Proof.Machine

@[simp] theorem State.advance_a (s : State) (len : Nat) : (s.advance len).a = s.a := rfl
@[simp] theorem State.advance_x (s : State) (len : Nat) : (s.advance len).x = s.x := rfl
@[simp] theorem State.advance_y (s : State) (len : Nat) : (s.advance len).y = s.y := rfl
@[simp] theorem State.advance_sp (s : State) (len : Nat) : (s.advance len).sp = s.sp := rfl
@[simp] theorem State.advance_pc (s : State) (len : Nat) : (s.advance len).pc = s.pc + BitVec.ofNat 16 len := rfl
@[simp] theorem State.advance_p (s : State) (len : Nat) : (s.advance len).p = s.p := rfl
@[simp] theorem State.advance_nmiPending (s : State) (len : Nat) : (s.advance len).nmiPending = s.nmiPending := rfl
@[simp] theorem State.advance_mem (s : State) (len : Nat) : (s.advance len).mem = s.mem := rfl
@[simp] theorem State.advance_inputs (s : State) (len : Nat) : (s.advance len).inputs = s.inputs := rfl
@[simp] theorem State.advance_outputs (s : State) (len : Nat) : (s.advance len).outputs = s.outputs := rfl
@[simp] theorem State.advance_turn (s : State) (len : Nat) : (s.advance len).turn = s.turn := rfl
@[simp] theorem State.advance_cycles (s : State) (len : Nat) : (s.advance len).cycles = s.cycles := rfl
@[simp] theorem State.advance_params (s : State) (len : Nat) : (s.advance len).params = s.params := rfl

@[simp] theorem State.setA_a (s : State) (v : Byte) : (s.setA v).a = v := rfl
@[simp] theorem State.setA_x (s : State) (v : Byte) : (s.setA v).x = s.x := rfl
@[simp] theorem State.setA_y (s : State) (v : Byte) : (s.setA v).y = s.y := rfl
@[simp] theorem State.setA_sp (s : State) (v : Byte) : (s.setA v).sp = s.sp := rfl
@[simp] theorem State.setA_pc (s : State) (v : Byte) : (s.setA v).pc = s.pc := rfl
@[simp] theorem State.setA_p (s : State) (v : Byte) : (s.setA v).p = s.p.setNZ v := rfl
@[simp] theorem State.setA_nmiPending (s : State) (v : Byte) : (s.setA v).nmiPending = s.nmiPending := rfl
@[simp] theorem State.setA_mem (s : State) (v : Byte) : (s.setA v).mem = s.mem := rfl
@[simp] theorem State.setA_inputs (s : State) (v : Byte) : (s.setA v).inputs = s.inputs := rfl
@[simp] theorem State.setA_outputs (s : State) (v : Byte) : (s.setA v).outputs = s.outputs := rfl
@[simp] theorem State.setA_turn (s : State) (v : Byte) : (s.setA v).turn = s.turn := rfl
@[simp] theorem State.setA_cycles (s : State) (v : Byte) : (s.setA v).cycles = s.cycles := rfl
@[simp] theorem State.setA_params (s : State) (v : Byte) : (s.setA v).params = s.params := rfl

@[simp] theorem State.setX_a (s : State) (v : Byte) : (s.setX v).a = s.a := rfl
@[simp] theorem State.setX_x (s : State) (v : Byte) : (s.setX v).x = v := rfl
@[simp] theorem State.setX_y (s : State) (v : Byte) : (s.setX v).y = s.y := rfl
@[simp] theorem State.setX_sp (s : State) (v : Byte) : (s.setX v).sp = s.sp := rfl
@[simp] theorem State.setX_pc (s : State) (v : Byte) : (s.setX v).pc = s.pc := rfl
@[simp] theorem State.setX_p (s : State) (v : Byte) : (s.setX v).p = s.p.setNZ v := rfl
@[simp] theorem State.setX_nmiPending (s : State) (v : Byte) : (s.setX v).nmiPending = s.nmiPending := rfl
@[simp] theorem State.setX_mem (s : State) (v : Byte) : (s.setX v).mem = s.mem := rfl
@[simp] theorem State.setX_inputs (s : State) (v : Byte) : (s.setX v).inputs = s.inputs := rfl
@[simp] theorem State.setX_outputs (s : State) (v : Byte) : (s.setX v).outputs = s.outputs := rfl
@[simp] theorem State.setX_turn (s : State) (v : Byte) : (s.setX v).turn = s.turn := rfl
@[simp] theorem State.setX_cycles (s : State) (v : Byte) : (s.setX v).cycles = s.cycles := rfl
@[simp] theorem State.setX_params (s : State) (v : Byte) : (s.setX v).params = s.params := rfl

@[simp] theorem State.setY_a (s : State) (v : Byte) : (s.setY v).a = s.a := rfl
@[simp] theorem State.setY_x (s : State) (v : Byte) : (s.setY v).x = s.x := rfl
@[simp] theorem State.setY_y (s : State) (v : Byte) : (s.setY v).y = v := rfl
@[simp] theorem State.setY_sp (s : State) (v : Byte) : (s.setY v).sp = s.sp := rfl
@[simp] theorem State.setY_pc (s : State) (v : Byte) : (s.setY v).pc = s.pc := rfl
@[simp] theorem State.setY_p (s : State) (v : Byte) : (s.setY v).p = s.p.setNZ v := rfl
@[simp] theorem State.setY_nmiPending (s : State) (v : Byte) : (s.setY v).nmiPending = s.nmiPending := rfl
@[simp] theorem State.setY_mem (s : State) (v : Byte) : (s.setY v).mem = s.mem := rfl
@[simp] theorem State.setY_inputs (s : State) (v : Byte) : (s.setY v).inputs = s.inputs := rfl
@[simp] theorem State.setY_outputs (s : State) (v : Byte) : (s.setY v).outputs = s.outputs := rfl
@[simp] theorem State.setY_turn (s : State) (v : Byte) : (s.setY v).turn = s.turn := rfl
@[simp] theorem State.setY_cycles (s : State) (v : Byte) : (s.setY v).cycles = s.cycles := rfl
@[simp] theorem State.setY_params (s : State) (v : Byte) : (s.setY v).params = s.params := rfl

@[simp] theorem State.pull8_a (s : State) : (s.pull8).a = s.a := rfl
@[simp] theorem State.pull8_x (s : State) : (s.pull8).x = s.x := rfl
@[simp] theorem State.pull8_y (s : State) : (s.pull8).y = s.y := rfl
@[simp] theorem State.pull8_sp (s : State) : (s.pull8).sp = s.sp + 1 := rfl
@[simp] theorem State.pull8_pc (s : State) : (s.pull8).pc = s.pc := rfl
@[simp] theorem State.pull8_p (s : State) : (s.pull8).p = s.p := rfl
@[simp] theorem State.pull8_nmiPending (s : State) : (s.pull8).nmiPending = s.nmiPending := rfl
@[simp] theorem State.pull8_mem (s : State) : (s.pull8).mem = s.mem := rfl
@[simp] theorem State.pull8_inputs (s : State) : (s.pull8).inputs = s.inputs := rfl
@[simp] theorem State.pull8_outputs (s : State) : (s.pull8).outputs = s.outputs := rfl
@[simp] theorem State.pull8_turn (s : State) : (s.pull8).turn = s.turn := rfl
@[simp] theorem State.pull8_cycles (s : State) : (s.pull8).cycles = s.cycles := rfl
@[simp] theorem State.pull8_params (s : State) : (s.pull8).params = s.params := rfl

@[simp] theorem State.pull16_a (s : State) : (s.pull16).a = s.a := rfl
@[simp] theorem State.pull16_x (s : State) : (s.pull16).x = s.x := rfl
@[simp] theorem State.pull16_y (s : State) : (s.pull16).y = s.y := rfl
@[simp] theorem State.pull16_sp (s : State) : (s.pull16).sp = s.sp + 1 + 1 := rfl
@[simp] theorem State.pull16_pc (s : State) : (s.pull16).pc = s.pc := rfl
@[simp] theorem State.pull16_p (s : State) : (s.pull16).p = s.p := rfl
@[simp] theorem State.pull16_nmiPending (s : State) : (s.pull16).nmiPending = s.nmiPending := rfl
@[simp] theorem State.pull16_mem (s : State) : (s.pull16).mem = s.mem := rfl
@[simp] theorem State.pull16_inputs (s : State) : (s.pull16).inputs = s.inputs := rfl
@[simp] theorem State.pull16_outputs (s : State) : (s.pull16).outputs = s.outputs := rfl
@[simp] theorem State.pull16_turn (s : State) : (s.pull16).turn = s.turn := rfl
@[simp] theorem State.pull16_cycles (s : State) : (s.pull16).cycles = s.cycles := rfl
@[simp] theorem State.pull16_params (s : State) : (s.pull16).params = s.params := rfl

@[simp] theorem State.spend_a (s : State) (k : Nat) : (s.spend k).a = s.a := rfl
@[simp] theorem State.spend_x (s : State) (k : Nat) : (s.spend k).x = s.x := rfl
@[simp] theorem State.spend_y (s : State) (k : Nat) : (s.spend k).y = s.y := rfl
@[simp] theorem State.spend_sp (s : State) (k : Nat) : (s.spend k).sp = s.sp := rfl
@[simp] theorem State.spend_pc (s : State) (k : Nat) : (s.spend k).pc = s.pc := rfl
@[simp] theorem State.spend_p (s : State) (k : Nat) : (s.spend k).p = s.p := rfl
@[simp] theorem State.spend_nmiPending (s : State) (k : Nat) : (s.spend k).nmiPending = s.nmiPending := rfl
@[simp] theorem State.spend_mem (s : State) (k : Nat) : (s.spend k).mem = s.mem := rfl
@[simp] theorem State.spend_inputs (s : State) (k : Nat) : (s.spend k).inputs = s.inputs := rfl
@[simp] theorem State.spend_outputs (s : State) (k : Nat) : (s.spend k).outputs = s.outputs := rfl
@[simp] theorem State.spend_turn (s : State) (k : Nat) : (s.spend k).turn = s.turn := rfl
@[simp] theorem State.spend_cycles (s : State) (k : Nat) : (s.spend k).cycles = s.cycles + k := rfl
@[simp] theorem State.spend_params (s : State) (k : Nat) : (s.spend k).params = s.params := rfl

@[simp] theorem State.writeByte_a (s : State) (addr : Word) (v : Byte) : (s.writeByte addr v).a = s.a := by unfold State.writeByte; split <;> rfl
@[simp] theorem State.writeByte_x (s : State) (addr : Word) (v : Byte) : (s.writeByte addr v).x = s.x := by unfold State.writeByte; split <;> rfl
@[simp] theorem State.writeByte_y (s : State) (addr : Word) (v : Byte) : (s.writeByte addr v).y = s.y := by unfold State.writeByte; split <;> rfl
@[simp] theorem State.writeByte_sp (s : State) (addr : Word) (v : Byte) : (s.writeByte addr v).sp = s.sp := by unfold State.writeByte; split <;> rfl
@[simp] theorem State.writeByte_pc (s : State) (addr : Word) (v : Byte) : (s.writeByte addr v).pc = s.pc := by unfold State.writeByte; split <;> rfl
@[simp] theorem State.writeByte_p (s : State) (addr : Word) (v : Byte) : (s.writeByte addr v).p = s.p := by unfold State.writeByte; split <;> rfl
@[simp] theorem State.writeByte_nmiPending (s : State) (addr : Word) (v : Byte) : (s.writeByte addr v).nmiPending = s.nmiPending := by unfold State.writeByte; split <;> rfl
@[simp] theorem State.writeByte_inputs (s : State) (addr : Word) (v : Byte) : (s.writeByte addr v).inputs = s.inputs := by unfold State.writeByte; split <;> rfl
@[simp] theorem State.writeByte_turn (s : State) (addr : Word) (v : Byte) : (s.writeByte addr v).turn = s.turn := by unfold State.writeByte; split <;> rfl
@[simp] theorem State.writeByte_cycles (s : State) (addr : Word) (v : Byte) : (s.writeByte addr v).cycles = s.cycles := by unfold State.writeByte; split <;> rfl
@[simp] theorem State.writeByte_params (s : State) (addr : Word) (v : Byte) : (s.writeByte addr v).params = s.params := by unfold State.writeByte; split <;> rfl

@[simp] theorem State.push8_a (s : State) (v : Byte) : (s.push8 v).a = s.a := by simp [State.push8]
@[simp] theorem State.push8_x (s : State) (v : Byte) : (s.push8 v).x = s.x := by simp [State.push8]
@[simp] theorem State.push8_y (s : State) (v : Byte) : (s.push8 v).y = s.y := by simp [State.push8]
@[simp] theorem State.push8_sp (s : State) (v : Byte) : (s.push8 v).sp = s.sp - 1 := by simp [State.push8]
@[simp] theorem State.push8_pc (s : State) (v : Byte) : (s.push8 v).pc = s.pc := by simp [State.push8]
@[simp] theorem State.push8_p (s : State) (v : Byte) : (s.push8 v).p = s.p := by simp [State.push8]
@[simp] theorem State.push8_nmiPending (s : State) (v : Byte) : (s.push8 v).nmiPending = s.nmiPending := by simp [State.push8]
@[simp] theorem State.push8_mem (s : State) (v : Byte) : (s.push8 v).mem = (s.writeByte (stackAddress s.sp) v).mem := by simp [State.push8]
@[simp] theorem State.push8_inputs (s : State) (v : Byte) : (s.push8 v).inputs = s.inputs := by simp [State.push8]
@[simp] theorem State.push8_outputs (s : State) (v : Byte) : (s.push8 v).outputs = (s.writeByte (stackAddress s.sp) v).outputs := by simp [State.push8]
@[simp] theorem State.push8_turn (s : State) (v : Byte) : (s.push8 v).turn = s.turn := by simp [State.push8]
@[simp] theorem State.push8_cycles (s : State) (v : Byte) : (s.push8 v).cycles = s.cycles := by simp [State.push8]
@[simp] theorem State.push8_params (s : State) (v : Byte) : (s.push8 v).params = s.params := by simp [State.push8]

@[simp] theorem State.push16_a (s : State) (w : Word) : (s.push16 w).a = s.a := by simp [State.push16]
@[simp] theorem State.push16_x (s : State) (w : Word) : (s.push16 w).x = s.x := by simp [State.push16]
@[simp] theorem State.push16_y (s : State) (w : Word) : (s.push16 w).y = s.y := by simp [State.push16]
@[simp] theorem State.push16_sp (s : State) (w : Word) : (s.push16 w).sp = s.sp - 1 - 1 := by simp [State.push16]
@[simp] theorem State.push16_pc (s : State) (w : Word) : (s.push16 w).pc = s.pc := by simp [State.push16]
@[simp] theorem State.push16_p (s : State) (w : Word) : (s.push16 w).p = s.p := by simp [State.push16]
@[simp] theorem State.push16_nmiPending (s : State) (w : Word) : (s.push16 w).nmiPending = s.nmiPending := by simp [State.push16]
@[simp] theorem State.push16_inputs (s : State) (w : Word) : (s.push16 w).inputs = s.inputs := by simp [State.push16]
@[simp] theorem State.push16_turn (s : State) (w : Word) : (s.push16 w).turn = s.turn := by simp [State.push16]
@[simp] theorem State.push16_cycles (s : State) (w : Word) : (s.push16 w).cycles = s.cycles := by simp [State.push16]
@[simp] theorem State.push16_params (s : State) (w : Word) : (s.push16 w).params = s.params := by simp [State.push16]

@[simp] theorem State.takeException_a (s : State) (b : Bool) (ret vector : Word) : (s.takeException b ret vector).a = s.a := by simp [State.takeException]
@[simp] theorem State.takeException_x (s : State) (b : Bool) (ret vector : Word) : (s.takeException b ret vector).x = s.x := by simp [State.takeException]
@[simp] theorem State.takeException_y (s : State) (b : Bool) (ret vector : Word) : (s.takeException b ret vector).y = s.y := by simp [State.takeException]
@[simp] theorem State.takeException_sp (s : State) (b : Bool) (ret vector : Word) : (s.takeException b ret vector).sp = s.sp - 1 - 1 - 1 := by simp [State.takeException]
@[simp] theorem State.takeException_p (s : State) (b : Bool) (ret vector : Word) : (s.takeException b ret vector).p = { s.p with i := true } := by simp [State.takeException]
@[simp] theorem State.takeException_nmiPending (s : State) (b : Bool) (ret vector : Word) : (s.takeException b ret vector).nmiPending = s.nmiPending := by simp [State.takeException]
@[simp] theorem State.takeException_mem (s : State) (b : Bool) (ret vector : Word) : (s.takeException b ret vector).mem = ((s.push16 ret).push8 (s.p.pByte b)).mem := by simp [State.takeException]
@[simp] theorem State.takeException_inputs (s : State) (b : Bool) (ret vector : Word) : (s.takeException b ret vector).inputs = s.inputs := by simp [State.takeException]
@[simp] theorem State.takeException_outputs (s : State) (b : Bool) (ret vector : Word) : (s.takeException b ret vector).outputs = ((s.push16 ret).push8 (s.p.pByte b)).outputs := by simp [State.takeException]
@[simp] theorem State.takeException_turn (s : State) (b : Bool) (ret vector : Word) : (s.takeException b ret vector).turn = s.turn := by simp [State.takeException]
@[simp] theorem State.takeException_cycles (s : State) (b : Bool) (ret vector : Word) : (s.takeException b ret vector).cycles = s.cycles := by simp [State.takeException]
@[simp] theorem State.takeException_params (s : State) (b : Bool) (ret vector : Word) : (s.takeException b ret vector).params = s.params := by simp [State.takeException]

@[simp] theorem State.returnFromException_a (s : State) : (s.returnFromException).a = s.a := rfl
@[simp] theorem State.returnFromException_x (s : State) : (s.returnFromException).x = s.x := rfl
@[simp] theorem State.returnFromException_y (s : State) : (s.returnFromException).y = s.y := rfl
@[simp] theorem State.returnFromException_sp (s : State) : (s.returnFromException).sp = s.sp + 1 + 1 + 1 := rfl
@[simp] theorem State.returnFromException_pc (s : State) : (s.returnFromException).pc = s.pull8.pulledWord := rfl
@[simp] theorem State.returnFromException_p (s : State) : (s.returnFromException).p = flagsOfByte s.pulledByte := rfl
@[simp] theorem State.returnFromException_nmiPending (s : State) : (s.returnFromException).nmiPending = s.nmiPending := rfl
@[simp] theorem State.returnFromException_mem (s : State) : (s.returnFromException).mem = s.mem := rfl
@[simp] theorem State.returnFromException_inputs (s : State) : (s.returnFromException).inputs = s.inputs := rfl
@[simp] theorem State.returnFromException_outputs (s : State) : (s.returnFromException).outputs = s.outputs := rfl
@[simp] theorem State.returnFromException_turn (s : State) : (s.returnFromException).turn = s.turn := rfl
@[simp] theorem State.returnFromException_cycles (s : State) : (s.returnFromException).cycles = s.cycles := rfl
@[simp] theorem State.returnFromException_params (s : State) : (s.returnFromException).params = s.params := rfl

@[simp] theorem State.enterNmi_a (s : State) : (s.enterNmi).a = s.a := by simp [State.enterNmi]
@[simp] theorem State.enterNmi_x (s : State) : (s.enterNmi).x = s.x := by simp [State.enterNmi]
@[simp] theorem State.enterNmi_y (s : State) : (s.enterNmi).y = s.y := by simp [State.enterNmi]
@[simp] theorem State.enterNmi_sp (s : State) : (s.enterNmi).sp = s.sp - 1 - 1 - 1 := by simp [State.enterNmi]
@[simp] theorem State.enterNmi_p (s : State) : (s.enterNmi).p = { s.p with i := true } := by simp [State.enterNmi]
@[simp] theorem State.enterNmi_nmiPending (s : State) : (s.enterNmi).nmiPending = false := by simp [State.enterNmi]
@[simp] theorem State.enterNmi_mem (s : State) : (s.enterNmi).mem = (s.takeException false s.pc nmiVector).mem := by simp [State.enterNmi]
@[simp] theorem State.enterNmi_inputs (s : State) : (s.enterNmi).inputs = s.inputs := by simp [State.enterNmi]
@[simp] theorem State.enterNmi_outputs (s : State) : (s.enterNmi).outputs = (s.takeException false s.pc nmiVector).outputs := by simp [State.enterNmi]
@[simp] theorem State.enterNmi_turn (s : State) : (s.enterNmi).turn = s.turn := by simp [State.enterNmi]
@[simp] theorem State.enterNmi_cycles (s : State) : (s.enterNmi).cycles = s.cycles := by simp [State.enterNmi]
@[simp] theorem State.enterNmi_params (s : State) : (s.enterNmi).params = s.params := by simp [State.enterNmi]

@[simp] theorem State.enterIrq_a (s : State) : (s.enterIrq).a = s.a := by simp [State.enterIrq]
@[simp] theorem State.enterIrq_x (s : State) : (s.enterIrq).x = s.x := by simp [State.enterIrq]
@[simp] theorem State.enterIrq_y (s : State) : (s.enterIrq).y = s.y := by simp [State.enterIrq]
@[simp] theorem State.enterIrq_sp (s : State) : (s.enterIrq).sp = s.sp - 1 - 1 - 1 := by simp [State.enterIrq]
@[simp] theorem State.enterIrq_p (s : State) : (s.enterIrq).p = { s.p with i := true } := by simp [State.enterIrq]
@[simp] theorem State.enterIrq_nmiPending (s : State) : (s.enterIrq).nmiPending = s.nmiPending := by simp [State.enterIrq]
@[simp] theorem State.enterIrq_mem (s : State) : (s.enterIrq).mem = (s.takeException false s.pc irqVector).mem := by simp [State.enterIrq]
@[simp] theorem State.enterIrq_inputs (s : State) : (s.enterIrq).inputs = s.inputs := by simp [State.enterIrq]
@[simp] theorem State.enterIrq_outputs (s : State) : (s.enterIrq).outputs = (s.takeException false s.pc irqVector).outputs := by simp [State.enterIrq]
@[simp] theorem State.enterIrq_turn (s : State) : (s.enterIrq).turn = s.turn := by simp [State.enterIrq]
@[simp] theorem State.enterIrq_cycles (s : State) : (s.enterIrq).cycles = s.cycles := by simp [State.enterIrq]
@[simp] theorem State.enterIrq_params (s : State) : (s.enterIrq).params = s.params := by simp [State.enterIrq]

@[simp] theorem State.enterReset_pc (s : State) : (s.enterReset).pc = s.readVector resVector := rfl
@[simp] theorem State.enterReset_nmiPending (s : State) : (s.enterReset).nmiPending = false := rfl
@[simp] theorem State.enterReset_mem (s : State) : (s.enterReset).mem = s.mem := rfl
@[simp] theorem State.enterReset_inputs (s : State) : (s.enterReset).inputs = s.inputs := rfl
@[simp] theorem State.enterReset_outputs (s : State) : (s.enterReset).outputs = s.outputs := rfl
@[simp] theorem State.enterReset_turn (s : State) : (s.enterReset).turn = s.turn := rfl
@[simp] theorem State.enterReset_cycles (s : State) : (s.enterReset).cycles = s.cycles := rfl
@[simp] theorem State.enterReset_params (s : State) : (s.enterReset).params = s.params := rfl

@[simp] theorem State.enterReset_p_i (s : State) : s.enterReset.p.i = true := rfl

@[simp] theorem State.atBoundary_a (s : State) : (s.atBoundary).a = s.a := rfl
@[simp] theorem State.atBoundary_x (s : State) : (s.atBoundary).x = s.x := rfl
@[simp] theorem State.atBoundary_y (s : State) : (s.atBoundary).y = s.y := rfl
@[simp] theorem State.atBoundary_sp (s : State) : (s.atBoundary).sp = s.sp := rfl
@[simp] theorem State.atBoundary_pc (s : State) : (s.atBoundary).pc = s.pc := rfl
@[simp] theorem State.atBoundary_nmiPending (s : State) : (s.atBoundary).nmiPending = (s.nmiPending || s.lines.nmiFell) := rfl
@[simp] theorem State.atBoundary_mem (s : State) : (s.atBoundary).mem = s.mem := rfl
@[simp] theorem State.atBoundary_inputs (s : State) : (s.atBoundary).inputs = s.inputs.tail := rfl
@[simp] theorem State.atBoundary_outputs (s : State) : (s.atBoundary).outputs = s.outputs := rfl
@[simp] theorem State.atBoundary_turn (s : State) : (s.atBoundary).turn = s.turn + 1 := rfl
@[simp] theorem State.atBoundary_cycles (s : State) : (s.atBoundary).cycles = s.cycles := rfl
@[simp] theorem State.atBoundary_params (s : State) : (s.atBoundary).params = s.params := rfl

theorem State.atBoundary_p (s : State) (h : s.params.soPinUsed = false) : s.atBoundary.p = s.p := by simp [State.atBoundary, h]

theorem State.atBoundary_p_except_v (s : State) : s.atBoundary.p = { s.p with v := s.atBoundary.p.v } := by
  unfold State.atBoundary; dsimp only; split <;> rfl

@[simp] theorem State.withDecimal_a (s : State) (value : Byte) (carry : Bool) : (s.withDecimal value carry).a = value := rfl
@[simp] theorem State.withDecimal_x (s : State) (value : Byte) (carry : Bool) : (s.withDecimal value carry).x = s.x := rfl
@[simp] theorem State.withDecimal_y (s : State) (value : Byte) (carry : Bool) : (s.withDecimal value carry).y = s.y := rfl
@[simp] theorem State.withDecimal_sp (s : State) (value : Byte) (carry : Bool) : (s.withDecimal value carry).sp = s.sp := rfl
@[simp] theorem State.withDecimal_pc (s : State) (value : Byte) (carry : Bool) : (s.withDecimal value carry).pc = s.pc := rfl
@[simp] theorem State.withDecimal_nmiPending (s : State) (value : Byte) (carry : Bool) : (s.withDecimal value carry).nmiPending = s.nmiPending := rfl
@[simp] theorem State.withDecimal_mem (s : State) (value : Byte) (carry : Bool) : (s.withDecimal value carry).mem = s.mem := rfl
@[simp] theorem State.withDecimal_inputs (s : State) (value : Byte) (carry : Bool) : (s.withDecimal value carry).inputs = s.inputs := rfl
@[simp] theorem State.withDecimal_outputs (s : State) (value : Byte) (carry : Bool) : (s.withDecimal value carry).outputs = s.outputs := rfl
@[simp] theorem State.withDecimal_turn (s : State) (value : Byte) (carry : Bool) : (s.withDecimal value carry).turn = s.turn := rfl
@[simp] theorem State.withDecimal_cycles (s : State) (value : Byte) (carry : Bool) : (s.withDecimal value carry).cycles = s.cycles := rfl
@[simp] theorem State.withDecimal_params (s : State) (value : Byte) (carry : Bool) : (s.withDecimal value carry).params = s.params := rfl

@[simp] theorem State.withDecimal_p_d (s : State) (value : Byte) (carry : Bool) : (s.withDecimal value carry).p.d = s.p.d := rfl
@[simp] theorem State.withDecimal_p_i (s : State) (value : Byte) (carry : Bool) : (s.withDecimal value carry).p.i = s.p.i := rfl
@[simp] theorem State.withDecimal_p_c (s : State) (value : Byte) (carry : Bool) : (s.withDecimal value carry).p.c = carry := rfl

@[simp] theorem Flags.setNZ_n (v : Byte) (f : Flags) : (f.setNZ v).n = v.msb := rfl
@[simp] theorem Flags.setNZ_v (v : Byte) (f : Flags) : (f.setNZ v).v = f.v := rfl
@[simp] theorem Flags.setNZ_d (v : Byte) (f : Flags) : (f.setNZ v).d = f.d := rfl
@[simp] theorem Flags.setNZ_i (v : Byte) (f : Flags) : (f.setNZ v).i = f.i := rfl
@[simp] theorem Flags.setNZ_z (v : Byte) (f : Flags) : (f.setNZ v).z = (v == 0x00#8) := rfl
@[simp] theorem Flags.setNZ_c (v : Byte) (f : Flags) : (f.setNZ v).c = f.c := rfl

@[simp] theorem Flags.compare_n (r d : Byte) (f : Flags) : (f.compare r d).n = (r - d).msb := rfl
@[simp] theorem Flags.compare_v (r d : Byte) (f : Flags) : (f.compare r d).v = f.v := rfl
@[simp] theorem Flags.compare_d (r d : Byte) (f : Flags) : (f.compare r d).d = f.d := rfl
@[simp] theorem Flags.compare_i (r d : Byte) (f : Flags) : (f.compare r d).i = f.i := rfl
@[simp] theorem Flags.compare_z (r d : Byte) (f : Flags) : (f.compare r d).z = (r == d) := rfl
@[simp] theorem Flags.compare_c (r d : Byte) (f : Flags) : (f.compare r d).c = decide (d.toNat ≤ r.toNat) := rfl

@[simp] theorem Flags.bitTest_n (a d : Byte) (f : Flags) : (f.bitTest a d).n = d.getLsbD 7 := rfl
@[simp] theorem Flags.bitTest_v (a d : Byte) (f : Flags) : (f.bitTest a d).v = d.getLsbD 6 := rfl
@[simp] theorem Flags.bitTest_d (a d : Byte) (f : Flags) : (f.bitTest a d).d = f.d := rfl
@[simp] theorem Flags.bitTest_i (a d : Byte) (f : Flags) : (f.bitTest a d).i = f.i := rfl
@[simp] theorem Flags.bitTest_z (a d : Byte) (f : Flags) : (f.bitTest a d).z = ((a &&& d) == 0x00#8) := rfl
@[simp] theorem Flags.bitTest_c (a d : Byte) (f : Flags) : (f.bitTest a d).c = f.c := rfl

end Sys2Proof.Machine
end

