-- ==== Sys2Proof/Laws/Ops.lean ====
section
/-! SUPPORT. What each shared operation can do, once: memory accesses, the stack, the exceptions, the boundary, the
fetch. -/

namespace Sys2Proof.Machine

theorem cellOf_lt (p : Params) (addr : Word) : cellOf p addr < 65536 := by
  unfold cellOf
  split
  · exact Nat.lt_trans (Nat.mod_lt _ (by decide)) (by decide)
  · exact addr.isLt

/-- Without the option of R66, an address reaches the cell of its own number. -/
theorem cellOf_of_not_stackInPageZero {p : Params} (h : p.stackInPageZero = false) (addr : Word) :
    cellOf p addr = addr.toNat := by simp [cellOf, h]

/-- The three bytes that an instruction can have stand in three different cells, aliased or not, wrapping or not (R66,
R75). -/
theorem cellOf_next_ne (p : Params) (addr : Word) :
    cellOf p (addr + 1) ≠ cellOf p addr ∧ cellOf p (addr + 2) ≠ cellOf p addr ∧
      cellOf p (addr + 2) ≠ cellOf p (addr + 1) := by
  have := addr.isLt
  simp only [cellOf, BitVec.toNat_add]
  simp
  refine ⟨?_, ?_, ?_⟩ <;> (repeat' split) <;> omega

/-- A read depends on the parameters, memory and the turn alone. -/
theorem readByte_congr {s t : State} (hp : t.params = s.params) (hm : t.mem = s.mem) (ht : t.turn = s.turn) :
    t.readByte = s.readByte := by
  funext use addr
  simp only [State.readByte, hp, hm, ht]

@[simp] theorem readByte_advance (s : State) (len : Nat) : (s.advance len).readByte = s.readByte := rfl
@[simp] theorem readByte_pull8 (s : State) : s.pull8.readByte = s.readByte := rfl
@[simp] theorem readByte_pull16 (s : State) : s.pull16.readByte = s.readByte := rfl
@[simp] theorem readByte_setA (s : State) (v : Byte) : (s.setA v).readByte = s.readByte := rfl
@[simp] theorem readByte_setX (s : State) (v : Byte) : (s.setX v).readByte = s.readByte := rfl
@[simp] theorem readByte_setY (s : State) (v : Byte) : (s.setY v).readByte = s.readByte := rfl

/-- All that a write can do, by the kind of the location (R51). -/
theorem writeByte_cases (s : State) (addr : Word) (v : Byte) :
    (kindAt s.params addr = .ram ∧ s.writeByte addr v = { s with mem := s.mem.write (cellOf s.params addr) v }) ∨
    (kindAt s.params addr = .rom ∧ s.writeByte addr v = s) ∨
    (isMemoryKind (kindAt s.params addr) = false ∧
      s.writeByte addr v = { s with outputs := (addr.toNat, v) :: s.outputs }) := by
  unfold State.writeByte
  cases h : kindAt s.params addr <;> simp [isMemoryKind]

/-- A write leaves every other cell as it was. -/
theorem readByte_writeByte_other (s : State) (addr other : Word) (v : Byte) (use : Access)
    (h : cellOf s.params other ≠ cellOf s.params addr) :
    (s.writeByte addr v).readByte use other = s.readByte use other := by
  rcases writeByte_cases s addr v with ⟨-, e⟩ | ⟨-, e⟩ | ⟨-, e⟩ <;> rw [e]
  · simp [State.readByte, Memory.read_write_other _ _ _ _ h]
  · rfl

/-- RAM reads back what was written, in a canonical memory. -/
theorem readByte_writeByte_ram (s : State) (addr : Word) (v : Byte) (use : Access) (hwf : s.mem.wf = true)
    (h : kindAt s.params addr = .ram) : (s.writeByte addr v).readByte use addr = v := by
  rcases writeByte_cases s addr v with ⟨-, e⟩ | ⟨h', -⟩ | ⟨h', -⟩
  · rw [e]
    simp [State.readByte, h, Memory.read_write_self _ _ _ hwf]
  · simp [h] at h'
  · simp [h, isMemoryKind] at h'

theorem writeByte_mem_wf (s : State) (addr : Word) (v : Byte) (hwf : s.mem.wf = true) :
    (s.writeByte addr v).mem.wf = true := by
  rcases writeByte_cases s addr v with ⟨-, e⟩ | ⟨-, e⟩ | ⟨-, e⟩ <;> rw [e]
  · exact Memory.wf_write _ _ _ (cellOf_lt _ _) hwf
  · exact hwf
  · exact hwf

theorem placeBytes_wf (p : Params) (bytes : List Byte) (addr : Word) (m : Memory) (hwf : m.wf = true) :
    (placeBytes p addr bytes m).wf = true := by
  induction bytes generalizing addr m with
  | nil => exact hwf
  | cons b bs ih => exact ih _ _ (Memory.wf_write _ _ _ (cellOf_lt _ _) hwf)

/-- The invariant reads the memory, the output events and the parameters alone. -/
theorem Inv_congr {s t : State} (hm : t.mem = s.mem) (ho : t.outputs = s.outputs) (hp : t.params = s.params) :
    t.Inv ↔ s.Inv := by simp only [State.Inv, hm, ho, hp]

/-- A write keeps the invariant. -/
theorem writeByte_Inv (s : State) (addr : Word) (v : Byte) (h : s.Inv) : (s.writeByte addr v).Inv := by
  obtain ⟨hwf, hmem, hout⟩ := h
  rcases writeByte_cases s addr v with ⟨hk, e⟩ | ⟨-, e⟩ | ⟨hk, e⟩ <;> rw [e]
  · refine ⟨Memory.wf_write _ _ _ (cellOf_lt _ _) hwf, fun c hc => ?_, hout⟩
    rcases Memory.mem_write hc with hc | hc
    · exact hmem c hc
    · rw [hc]
      show isMemoryKind (kindAt s.params addr) = true
      rw [hk]
      rfl
  · exact ⟨hwf, hmem, hout⟩
  · refine ⟨hwf, hmem, fun c hc => ?_⟩
    rcases List.mem_cons.1 hc with rfl | hc
    · exact ⟨addr.isLt, by simpa using hk⟩
    · exact hout c hc

theorem push8_Inv (s : State) (v : Byte) (h : s.Inv) : (s.push8 v).Inv :=
  (Inv_congr (by simp) (by simp) (by simp)).2 (writeByte_Inv s (stackAddress s.sp) v h)

theorem push16_Inv (s : State) (w : Word) (h : s.Inv) : (s.push16 w).Inv := push8_Inv _ _ (push8_Inv _ _ h)

theorem takeException_Inv (s : State) (b : Bool) (ret vector : Word) (h : s.Inv) :
    (s.takeException b ret vector).Inv :=
  (Inv_congr (by simp) (by simp) (by simp)).2 (push8_Inv _ (s.p.pByte b) (push16_Inv s ret h))

/-- A boundary touches the lines, the latch, the turn and, under a driven S.O. pin, V. -/
theorem atBoundary_Inv (s : State) : s.atBoundary.Inv ↔ s.Inv := Inv_congr (by simp) (by simp) (by simp)

/-- The event of a boundary says what the lines and the flags are (R227, R228). -/
theorem event_cases (s : State) :
    (s.event = .reset ∧ s.lines.res = true) ∨
    (s.event = .nmi ∧ s.lines.res = false ∧ (s.nmiPending || s.lines.nmiFell) = true) ∨
    (s.event = .irq ∧ s.lines.res = false ∧ (s.nmiPending || s.lines.nmiFell) = false ∧
      s.lines.irqLow = true ∧ s.p.i = false) ∨
    (s.event = .instruction ∧ s.lines.res = false ∧ (s.nmiPending || s.lines.nmiFell) = false ∧
      (s.lines.irqLow = true → s.p.i = true)) := by
  unfold State.event
  cases s.lines.res <;> cases (s.nmiPending || s.lines.nmiFell) <;> cases s.lines.irqLow <;> cases s.p.i <;> simp

/-- A fetch is the decoding of the bytes at PC: it answers an instruction when `decode` does (R75). -/
theorem fetch_of_decode (s : State) (i : Instr) (rest : List Byte)
    (h : decode [s.readByte .opcode s.pc, s.readByte .operandLow (s.pc + 1), s.readByte .operandHigh (s.pc + 2)]
      = .ok (i, rest)) : s.fetch = .ok i := by
  simp only [decode] at h
  simp only [State.fetch]
  cases hs : opcodeShape (s.readByte .opcode s.pc) with
  | none => simp [hs] at h
  | some shape => cases shape <;> simp_all [Shape.complete]

/-- A fetch stops on an undefined opcode byte only (R97). -/
theorem fetch_error (s : State) (r : Refusal) (h : s.fetch = .error r) :
    opcodeShape (s.readByte .opcode s.pc) = none ∧ r = .undefinedOpcode (s.readByte .opcode s.pc) := by
  simp only [State.fetch] at h
  cases hs : opcodeShape (s.readByte .opcode s.pc) <;> simp_all

end Sys2Proof.Machine
end

