-- ==== Sys2Proof/Laws/Operands.lean ====
section
/-! SUPPORT. What the addressing forms and the shared ways of using them can do, once. -/

namespace Sys2Proof.Machine

/-- Operands depend on X, Y, the parameters, memory and the turn alone. -/
theorem zeroPagePointer_congr {s t : State} (hp : t.params = s.params) (hm : t.mem = s.mem) (ht : t.turn = s.turn)
    (ptr : Byte) : zeroPagePointer ptr t = zeroPagePointer ptr s := by
  simp only [zeroPagePointer, readByte_congr hp hm ht, hp]

theorem effectiveAddress_congr {s t : State} (hx : t.x = s.x) (hy : t.y = s.y) (hp : t.params = s.params)
    (hm : t.mem = s.mem) (ht : t.turn = s.turn) (m : MemForm) : effectiveAddress m t = effectiveAddress m s := by
  cases m <;> simp only [effectiveAddress, hx, hy, zeroPagePointer_congr hp hm ht]

theorem operandByte_congr {s t : State} (hx : t.x = s.x) (hy : t.y = s.y) (hp : t.params = s.params)
    (hm : t.mem = s.mem) (ht : t.turn = s.turn) (src : Source) : operandByte src t = operandByte src s := by
  cases src <;> simp only [operandByte, effectiveAddress_congr hx hy hp hm ht, readByte_congr hp hm ht]

/-- A zero-page pointer stops only where it leaves page 0 and the parameter refuses that (R88, R89). -/
theorem zeroPagePointer_error {ptr : Byte} {s : State} {r : Refusal} (h : zeroPagePointer ptr s = .error r) :
    ptr = 0xFF#8 ∧ s.params.zpPtrCross = .refuse ∧ r = .zeroPagePointerCross := by
  unfold zeroPagePointer at h
  split at h
  · next hp => cases hz : s.params.zpPtrCross <;> simp_all
  · simp at h

theorem effectiveAddress_error {m : MemForm} {s : State} {r : Refusal} (h : effectiveAddress m s = .error r) :
    s.params.zpPtrCross = .refuse ∧ r = .zeroPagePointerCross := by
  cases m <;> simp only [effectiveAddress, reduceCtorEq] at h
  · exact (zeroPagePointer_error h).2
  · split at h
    · simp at h
    · next hz => exact (Except.error.inj h) ▸ (zeroPagePointer_error hz).2

theorem operandByte_error {src : Source} {s : State} {r : Refusal} (h : operandByte src s = .error r) :
    s.params.zpPtrCross = .refuse ∧ r = .zeroPagePointerCross := by
  cases src with
  | imm n => simp [operandByte] at h
  | mem m =>
    simp only [operandByte] at h
    split at h
    · simp at h
    · next he => exact (Except.error.inj h) ▸ effectiveAddress_error he

theorem indirectTarget_error {nn : Word} {s : State} {r : Refusal} (h : indirectTarget nn s = .error r) :
    s.params.jmpIndCross = .refuse ∧ r = .jmpIndirectCross := by
  unfold indirectTarget at h
  split at h
  · cases hz : s.params.jmpIndCross <;> simp_all
  · simp at h

/-- An instruction that reads an operand goes on only with that operand. -/
theorem withOperand_next {src : Source} {f : Byte → State → State} {s t : State}
    (h : withOperand src f s = .next t) : ∃ d, operandByte src s = .ok d ∧ t = (f d s).advance src.length := by
  unfold withOperand at h
  split at h
  · next d hd => exact ⟨d, hd, (Host.Outcome.next.inj h).symm⟩
  · simp at h

theorem storeAt_next {m : MemForm} {v : Byte} {s t : State} (h : storeAt m v s = .next t) :
    ∃ ea, effectiveAddress m s = .ok ea ∧ t = (s.writeByte ea v).advance (Source.mem m).length := by
  unfold storeAt at h
  split at h
  · next ea hd => exact ⟨ea, hd, (Host.Outcome.next.inj h).symm⟩
  · simp at h

theorem modifyAt_next {m : MemForm} {f : Byte → Flags → Byte × Flags} {s t : State}
    (h : modifyAt m f s = .next t) :
    ∃ ea, effectiveAddress m s = .ok ea ∧
      t = { s.writeByte ea (f (s.readByte .data ea) s.p).1 with
            p := (f (s.readByte .data ea) s.p).2 }.advance (Source.mem m).length := by
  unfold modifyAt at h
  split at h
  · next ea hd => exact ⟨ea, hd, (Host.Outcome.next.inj h).symm⟩
  · simp at h

theorem arithmeticOn_next {src : Source} {f : Byte → State → Except Refusal State} {s t : State}
    (h : arithmeticOn src f s = .next t) :
    ∃ d u, operandByte src s = .ok d ∧ f d s = .ok u ∧ t = u.advance src.length := by
  unfold arithmeticOn at h
  split at h
  · simp at h
  · next d hd =>
    split at h
    · simp at h
    · next u hu => exact ⟨d, u, hd, hu, (Host.Outcome.next.inj h).symm⟩

/-- Decimal arithmetic writes A and the flags N, V, Z, C, whatever the operands (R122). -/
theorem decimalOutcome_ok {d value : Byte} {carry : Bool} {s t : State}
    (h : decimalOutcome d value carry s = .ok t) : ∃ r c, t = s.withDecimal r c := by
  unfold decimalOutcome at h
  split at h
  · simp at h
  · split at h
    · exact ⟨_, _, (Except.ok.inj h).symm⟩
    · simp at h

theorem addOperand_ok {d : Byte} {s t : State} (h : addOperand d s = .ok t) :
    t = addBinary d s ∨ ∃ r c, t = s.withDecimal r c := by
  unfold addOperand at h
  split at h
  · exact .inr (decimalOutcome_ok h)
  · exact .inl (Except.ok.inj h).symm

theorem subOperand_ok {d : Byte} {s t : State} (h : subOperand d s = .ok t) :
    t = subBinary d s ∨ ∃ r c, t = s.withDecimal r c := by
  unfold subOperand at h
  split at h
  · exact .inr (decimalOutcome_ok h)
  · exact .inl (Except.ok.inj h).symm

/-- Decimal arithmetic stops only as `DECIMAL_MODE` says (R122). -/
theorem decimalOutcome_error {d value : Byte} {carry : Bool} {s : State} {r : Refusal}
    (h : decimalOutcome d value carry s = .error r) :
    (s.params.decimalMode = .refuse ∧ r = .decimalRefused) ∨
    (s.params.decimalMode = .bcdValidOnly ∧ (isBcd s.a && isBcd d) = false ∧ r = .decimalInvalidBcd) := by
  unfold decimalOutcome at h
  split at h
  · next hm => exact .inl ⟨hm, (Except.error.inj h).symm⟩
  · next hm =>
    split at h
    · simp at h
    · next hb => exact .inr ⟨hm, by simpa using hb, (Except.error.inj h).symm⟩

end Sys2Proof.Machine
end

