-- ==== Sys2Proof/Laws/Exec.lean ====
section
/-! SUPPORT. The 151 arms of exec as one function of mnemonic and addressing form, and all that an instruction can do when
it goes on: what a proof about every instruction takes apart in place of the arms. -/

namespace Sys2Proof.Machine

/-- What a mnemonic does in an addressing form; `op` is the opcode byte that an absent ROR refuses. -/
def meaningOf (m : Mnemonic) (fm : Form) (op : Byte) (s : State) : Host.Outcome State Fault Refusal :=
  match m, fm with
  | .adc, .data src => arithmeticOn src addOperand s
  | .sbc, .data src => arithmeticOn src subOperand s
  | .cmp, .data src => compareWith s.a src s
  | .cpx, .data src => compareWith s.x src s
  | .cpy, .data src => compareWith s.y src s
  | .and, .data src => logicOn (· &&& ·) src s
  | .eor, .data src => logicOn (· ^^^ ·) src s
  | .ora, .data src => logicOn (· ||| ·) src s
  | .bit, .data src => bitOn src s
  | .asl, .acc => modifyA aslResult s
  | .asl, .data (.mem m) => modifyAt m aslResult s
  | .lsr, .acc => modifyA lsrResult s
  | .lsr, .data (.mem m) => modifyAt m lsrResult s
  | .rol, .acc => modifyA rolResult s
  | .rol, .data (.mem m) => modifyAt m rolResult s
  | .ror, .acc => ifPresent s.params.hasRor op (modifyA rorResult s)
  | .ror, .data (.mem m) => ifPresent s.params.hasRor op (modifyAt m rorResult s)
  | .bcc, .rel n => branchIf (!s.p.c) n s
  | .bcs, .rel n => branchIf (s.p.c) n s
  | .beq, .rel n => branchIf (s.p.z) n s
  | .bne, .rel n => branchIf (!s.p.z) n s
  | .bmi, .rel n => branchIf (s.p.n) n s
  | .bpl, .rel n => branchIf (!s.p.n) n s
  | .bvc, .rel n => branchIf (!s.p.v) n s
  | .bvs, .rel n => branchIf (s.p.v) n s
  | .clc, .imp => implied (fun s => { s with p := { s.p with c := false } }) s
  | .cld, .imp => implied (fun s => { s with p := { s.p with d := false } }) s
  | .cli, .imp => implied (fun s => { s with p := { s.p with i := false } }) s
  | .clv, .imp => implied (fun s => { s with p := { s.p with v := false } }) s
  | .sec, .imp => implied (fun s => { s with p := { s.p with c := true } }) s
  | .sed, .imp => implied (fun s => { s with p := { s.p with d := true } }) s
  | .sei, .imp => implied (fun s => { s with p := { s.p with i := true } }) s
  | .dec, .data (.mem m) => modifyAt m decResult s
  | .inc, .data (.mem m) => modifyAt m incResult s
  | .dex, .imp => implied (fun s => s.setX (s.x - 1)) s
  | .dey, .imp => implied (fun s => s.setY (s.y - 1)) s
  | .inx, .imp => implied (fun s => s.setX (s.x + 1)) s
  | .iny, .imp => implied (fun s => s.setY (s.y + 1)) s
  | .jmp, .data (.mem (.abs nn)) => .next { s with pc := nn }
  | .jmp, .ind nn => execJmpInd nn s
  | .jsr, .data (.mem (.abs nn)) => execJsr nn s
  | .rts, .imp => execRts s
  | .lda, .data src => withOperand src (fun d s => s.setA d) s
  | .ldx, .data src => withOperand src (fun d s => s.setX d) s
  | .ldy, .data src => withOperand src (fun d s => s.setY d) s
  | .sta, .data (.mem m) => storeAt m s.a s
  | .stx, .data (.mem m) => storeAt m s.x s
  | .sty, .data (.mem m) => storeAt m s.y s
  | .pha, .imp => execPha s
  | .php, .imp => execPhp s
  | .pla, .imp => execPla s
  | .plp, .imp => execPlp s
  | .tax, .imp => implied (fun s => s.setX s.a) s
  | .tay, .imp => implied (fun s => s.setY s.a) s
  | .tsx, .imp => implied (fun s => s.setX s.sp) s
  | .txa, .imp => implied (fun s => s.setA s.x) s
  | .txs, .imp => implied (fun s => { s with sp := s.x }) s
  | .tya, .imp => implied (fun s => s.setA s.y) s
  | .brk, .imp => execBrk s
  | .rti, .imp => execRti s
  | .nop, .imp => implied (fun s => s) s
  | _, _ => .refused (.undefinedOpcode 0)

/-- The addressing forms that a mnemonic has. -/
def hasForm (m : Mnemonic) (fm : Form) : Prop :=
  match m with
  | .adc | .sbc | .cmp | .cpx | .cpy | .and | .eor | .ora | .bit | .lda | .ldx | .ldy => ∃ src, fm = .data src
  | .asl | .lsr | .rol | .ror => fm = .acc ∨ ∃ m, fm = .data (.mem m)
  | .bcc | .bcs | .beq | .bne | .bmi | .bpl | .bvc | .bvs => ∃ n, fm = .rel n
  | .inc | .dec | .sta | .stx | .sty => ∃ m, fm = .data (.mem m)
  | .jmp => (∃ nn, fm = .ind nn) ∨ ∃ nn, fm = .data (.mem (.abs nn))
  | .jsr => ∃ nn, fm = .data (.mem (.abs nn))
  | _ => fm = .imp

theorem hasForm_form (i : Instr) : hasForm i.mnemonic i.form := by
  cases i <;> first | rfl | exact ⟨_, rfl⟩ | exact .inl rfl | exact .inr ⟨_, rfl⟩ | exact .inl ⟨_, rfl⟩

theorem exec_eq_meaningOf (i : Instr) (s : State) : exec i s = meaningOf i.mnemonic i.form i.opcode s := by
  cases i <;> rfl

/-- The computation of a shift, a rotate, INC or DEC. -/
inductive Modifies : Mnemonic → (Byte → Flags → Byte × Flags) → Prop where
  | asl : Modifies .asl aslResult
  | lsr : Modifies .lsr lsrResult
  | rol : Modifies .rol rolResult
  | ror : Modifies .ror rorResult
  | inc : Modifies .inc incResult
  | dec : Modifies .dec decResult

/-- What an instruction with an operand byte `d` that writes registers and flags only makes of a state, but for the pc. -/
inductive Computes (s : State) (d : Byte) : Mnemonic → State → Prop where
  | adc : Computes s d .adc (addBinary d s)
  | adcDecimal (r : Byte) (c : Bool) : Computes s d .adc (s.withDecimal r c)
  | sbc : Computes s d .sbc (subBinary d s)
  | sbcDecimal (r : Byte) (c : Bool) : Computes s d .sbc (s.withDecimal r c)
  | and : Computes s d .and (s.setA (s.a &&& d))
  | eor : Computes s d .eor (s.setA (s.a ^^^ d))
  | ora : Computes s d .ora (s.setA (s.a ||| d))
  | lda : Computes s d .lda (s.setA d)
  | ldx : Computes s d .ldx (s.setX d)
  | ldy : Computes s d .ldy (s.setY d)
  | cmp : Computes s d .cmp { s with p := s.p.compare s.a d }
  | cpx : Computes s d .cpx { s with p := s.p.compare s.x d }
  | cpy : Computes s d .cpy { s with p := s.p.compare s.y d }
  | bit : Computes s d .bit { s with p := s.p.bitTest s.a d }

/-- What an instruction without operand that stores nothing makes of a state, but for the pc. -/
inductive Implies (s : State) : Mnemonic → State → Prop where
  | clc : Implies s .clc { s with p := { s.p with c := false } }
  | cld : Implies s .cld { s with p := { s.p with d := false } }
  | cli : Implies s .cli { s with p := { s.p with i := false } }
  | clv : Implies s .clv { s with p := { s.p with v := false } }
  | sec : Implies s .sec { s with p := { s.p with c := true } }
  | sed : Implies s .sed { s with p := { s.p with d := true } }
  | sei : Implies s .sei { s with p := { s.p with i := true } }
  | dex : Implies s .dex (s.setX (s.x - 1))
  | dey : Implies s .dey (s.setY (s.y - 1))
  | inx : Implies s .inx (s.setX (s.x + 1))
  | iny : Implies s .iny (s.setY (s.y + 1))
  | tax : Implies s .tax (s.setX s.a)
  | tay : Implies s .tay (s.setY s.a)
  | tsx : Implies s .tsx (s.setX s.sp)
  | txa : Implies s .txa (s.setA s.x)
  | txs : Implies s .txs { s with sp := s.x }
  | tya : Implies s .tya (s.setA s.y)
  | pla : Implies s .pla (s.pull8.setA s.pulledByte)
  | plp : Implies s .plp { s.pull8 with p := flagsOfByte s.pulledByte }
  | nop : Implies s .nop s

/-- All that an instruction can do when it goes on from `s`. -/
inductive Goes (s : State) : Mnemonic → Form → State → Prop where
  | compute (m : Mnemonic) (src : Source) (d : Byte) (u : State) (hd : operandByte src s = .ok d)
      (hu : Computes s d m u) : Goes s m (.data src) (u.advance src.length)
  | store (m : Mnemonic) (mf : MemForm) (ea : Word) (v : Byte) (he : effectiveAddress mf s = .ok ea)
      (hm : m = .sta ∧ v = s.a ∨ m = .stx ∧ v = s.x ∨ m = .sty ∧ v = s.y) :
      Goes s m (.data (.mem mf)) ((s.writeByte ea v).advance (Source.mem mf).length)
  | modify (m : Mnemonic) (mf : MemForm) (ea : Word) (f : Byte → Flags → Byte × Flags)
      (he : effectiveAddress mf s = .ok ea) (hf : Modifies m f) :
      Goes s m (.data (.mem mf))
        ({ s.writeByte ea (f (s.readByte .data ea) s.p).1 with
           p := (f (s.readByte .data ea) s.p).2 }.advance (Source.mem mf).length)
  | modifyA (m : Mnemonic) (f : Byte → Flags → Byte × Flags) (hf : Modifies m f) :
      Goes s m .acc ({ s with a := (f s.a s.p).1, p := (f s.a s.p).2 }.advance 1)
  | branch (m : Mnemonic) (n : Byte) (cond : Bool)
      (hm : m ∈ [.bcc, .bcs, .beq, .bne, .bmi, .bpl, .bvc, .bvs]) :
      Goes s m (.rel n) { s with pc := if cond then branchTarget n s else s.pc + 2 }
  | jump (nn : Word) : Goes s .jmp (.data (.mem (.abs nn))) { s with pc := nn }
  | jumpIndirect (nn target : Word) (ht : indirectTarget nn s = .ok target) :
      Goes s .jmp (.ind nn) { s with pc := target }
  | jsr (nn : Word) : Goes s .jsr (.data (.mem (.abs nn))) { s.push16 (s.pc + 2) with pc := nn }
  | rts : Goes s .rts .imp { s.pull16 with pc := s.pulledWord + 1 }
  | push (m : Mnemonic) (v : Byte) (hm : m = .pha ∧ v = s.a ∨ m = .php ∧ v = s.p.pByte true) :
      Goes s m .imp ((s.push8 v).advance 1)
  | brk : Goes s .brk .imp (s.takeException true (s.pc + 2) irqVector)
  | rti : Goes s .rti .imp s.returnFromException
  | implied (m : Mnemonic) (u : State) (hu : Implies s m u) : Goes s m .imp (u.advance 1)

/-- If an instruction answers a next state, it is one that `Goes` lists. -/
theorem exec_next_cases {i : Instr} {s t : State} (h : exec i s = .next t) : Goes s i.mnemonic i.form t := by
  have ok := hasForm_form i
  rw [exec_eq_meaningOf] at h
  generalize i.mnemonic = m at *
  generalize i.form = fm at *
  generalize i.opcode = op at *
  cases m
  case adc =>
    obtain ⟨src, rfl⟩ := ok
    obtain ⟨d, u, hd, hu, rfl⟩ := arithmeticOn_next (src := src) (f := addOperand) h
    rcases addOperand_ok hu with rfl | ⟨r, c, rfl⟩
    · exact .compute _ src d _ hd .adc
    · exact .compute _ src d _ hd (.adcDecimal r c)
  case sbc =>
    obtain ⟨src, rfl⟩ := ok
    obtain ⟨d, u, hd, hu, rfl⟩ := arithmeticOn_next (src := src) (f := subOperand) h
    rcases subOperand_ok hu with rfl | ⟨r, c, rfl⟩
    · exact .compute _ src d _ hd .sbc
    · exact .compute _ src d _ hd (.sbcDecimal r c)
  case cmp =>
    obtain ⟨src, rfl⟩ := ok
    obtain ⟨d, hd, rfl⟩ := withOperand_next (src := src) (f := fun d u => { u with p := u.p.compare s.a d }) h
    exact .compute _ src d _ hd .cmp
  case cpx =>
    obtain ⟨src, rfl⟩ := ok
    obtain ⟨d, hd, rfl⟩ := withOperand_next (src := src) (f := fun d u => { u with p := u.p.compare s.x d }) h
    exact .compute _ src d _ hd .cpx
  case cpy =>
    obtain ⟨src, rfl⟩ := ok
    obtain ⟨d, hd, rfl⟩ := withOperand_next (src := src) (f := fun d u => { u with p := u.p.compare s.y d }) h
    exact .compute _ src d _ hd .cpy
  case and =>
    obtain ⟨src, rfl⟩ := ok
    obtain ⟨d, hd, rfl⟩ := withOperand_next (src := src) (f := fun d u => u.setA (u.a &&& d)) h
    exact .compute _ src d _ hd .and
  case eor =>
    obtain ⟨src, rfl⟩ := ok
    obtain ⟨d, hd, rfl⟩ := withOperand_next (src := src) (f := fun d u => u.setA (u.a ^^^ d)) h
    exact .compute _ src d _ hd .eor
  case ora =>
    obtain ⟨src, rfl⟩ := ok
    obtain ⟨d, hd, rfl⟩ := withOperand_next (src := src) (f := fun d u => u.setA (u.a ||| d)) h
    exact .compute _ src d _ hd .ora
  case lda =>
    obtain ⟨src, rfl⟩ := ok
    obtain ⟨d, hd, rfl⟩ := withOperand_next (src := src) (f := fun d u => u.setA d) h
    exact .compute _ src d _ hd .lda
  case ldx =>
    obtain ⟨src, rfl⟩ := ok
    obtain ⟨d, hd, rfl⟩ := withOperand_next (src := src) (f := fun d u => u.setX d) h
    exact .compute _ src d _ hd .ldx
  case ldy =>
    obtain ⟨src, rfl⟩ := ok
    obtain ⟨d, hd, rfl⟩ := withOperand_next (src := src) (f := fun d u => u.setY d) h
    exact .compute _ src d _ hd .ldy
  case bit =>
    obtain ⟨src, rfl⟩ := ok
    obtain ⟨d, hd, rfl⟩ := withOperand_next (src := src) (f := fun d u => { u with p := u.p.bitTest u.a d }) h
    exact .compute _ src d _ hd .bit
  case sta =>
    obtain ⟨mf, rfl⟩ := ok
    obtain ⟨ea, he, rfl⟩ := storeAt_next (m := mf) (v := s.a) h
    exact .store _ mf ea _ he (by simp)
  case stx =>
    obtain ⟨mf, rfl⟩ := ok
    obtain ⟨ea, he, rfl⟩ := storeAt_next (m := mf) (v := s.x) h
    exact .store _ mf ea _ he (by simp)
  case sty =>
    obtain ⟨mf, rfl⟩ := ok
    obtain ⟨ea, he, rfl⟩ := storeAt_next (m := mf) (v := s.y) h
    exact .store _ mf ea _ he (by simp)
  case inc =>
    obtain ⟨mf, rfl⟩ := ok
    obtain ⟨ea, he, rfl⟩ := modifyAt_next (m := mf) (f := incResult) h
    exact .modify _ mf ea _ he .inc
  case dec =>
    obtain ⟨mf, rfl⟩ := ok
    obtain ⟨ea, he, rfl⟩ := modifyAt_next (m := mf) (f := decResult) h
    exact .modify _ mf ea _ he .dec
  case asl =>
    obtain rfl | ⟨mf, rfl⟩ := ok
    · obtain rfl := Host.Outcome.next.inj h
      exact .modifyA _ _ .asl
    · obtain ⟨ea, he, rfl⟩ := modifyAt_next (m := mf) (f := aslResult) h
      exact .modify _ mf ea _ he .asl
  case lsr =>
    obtain rfl | ⟨mf, rfl⟩ := ok
    · obtain rfl := Host.Outcome.next.inj h
      exact .modifyA _ _ .lsr
    · obtain ⟨ea, he, rfl⟩ := modifyAt_next (m := mf) (f := lsrResult) h
      exact .modify _ mf ea _ he .lsr
  case rol =>
    obtain rfl | ⟨mf, rfl⟩ := ok
    · obtain rfl := Host.Outcome.next.inj h
      exact .modifyA _ _ .rol
    · obtain ⟨ea, he, rfl⟩ := modifyAt_next (m := mf) (f := rolResult) h
      exact .modify _ mf ea _ he .rol
  case ror =>
    obtain rfl | ⟨mf, rfl⟩ := ok
    · change ifPresent _ _ (modifyA rorResult s) = _ at h
      unfold ifPresent at h
      split at h
      · obtain rfl := Host.Outcome.next.inj h
        exact .modifyA _ _ .ror
      · cases h
    · change ifPresent _ _ (modifyAt mf rorResult s) = _ at h
      unfold ifPresent at h
      split at h
      · obtain ⟨ea, he, rfl⟩ := modifyAt_next (m := mf) (f := rorResult) h
        exact .modify _ mf ea _ he .ror
      · cases h
  case jmp =>
    obtain ⟨nn, rfl⟩ | ⟨nn, rfl⟩ := ok
    · change execJmpInd nn s = _ at h
      unfold execJmpInd at h
      split at h
      · next target ht =>
        obtain rfl := Host.Outcome.next.inj h
        exact .jumpIndirect nn target ht
      · cases h
    · obtain rfl := Host.Outcome.next.inj h
      exact .jump nn
  case jsr =>
    obtain ⟨nn, rfl⟩ := ok
    obtain rfl := Host.Outcome.next.inj h
    exact .jsr nn
  case bcc | bcs | beq | bne | bmi | bpl | bvc | bvs =>
    obtain ⟨n, rfl⟩ := ok
    obtain rfl := Host.Outcome.next.inj h
    exact .branch _ n _ (by simp)
  case pha | php =>
    obtain rfl := (show fm = .imp from ok)
    obtain rfl := Host.Outcome.next.inj h
    exact .push _ _ (by simp)
  case rts =>
    obtain rfl := (show fm = .imp from ok)
    obtain rfl := Host.Outcome.next.inj h
    exact .rts
  case brk =>
    obtain rfl := (show fm = .imp from ok)
    obtain rfl := Host.Outcome.next.inj h
    exact .brk
  case rti =>
    obtain rfl := (show fm = .imp from ok)
    obtain rfl := Host.Outcome.next.inj h
    exact .rti
  all_goals
    obtain rfl := (show fm = .imp from ok)
    obtain rfl := Host.Outcome.next.inj h
    exact .implied _ _ (by constructor)

end Sys2Proof.Machine
end

