-- ==== Sys2Proof/Laws/PerInstr.lean ====
section
/-! SUPPORT. Laws made per instruction: one lemma for every constructor of `Instr`. -/

namespace Sys2Proof.Laws.OpcodeRow

/-- The opcode table's row at the instruction's opcode byte has the length of its addressing form, and completed with the
instruction's operand bytes it is the instruction (spec R80, R81, R95). -/
def Statement (i : Instr) : Prop :=
  ∃ shape, opcodeShape i.opcode = some shape ∧ shape.length = i.form.length ∧
    i.form.bytes.length + 1 = i.form.length ∧
    shape.complete (i.form.bytes.getD 0 0) (i.form.bytes.getD 1 0) = i

theorem adcImm (n : Byte) : Statement (.adcImm n) := ⟨_, rfl, rfl, rfl, rfl⟩
theorem adcZp (n : Byte) : Statement (.adcZp n) := ⟨_, rfl, rfl, rfl, rfl⟩
theorem adcZpx (n : Byte) : Statement (.adcZpx n) := ⟨_, rfl, rfl, rfl, rfl⟩
theorem adcAbs (nn : Word) : Statement (.adcAbs nn) := ⟨_, rfl, rfl, rfl, congrArg Instr.adcAbs (joinBytes_split nn)⟩
theorem adcAbx (nn : Word) : Statement (.adcAbx nn) := ⟨_, rfl, rfl, rfl, congrArg Instr.adcAbx (joinBytes_split nn)⟩
theorem adcAby (nn : Word) : Statement (.adcAby nn) := ⟨_, rfl, rfl, rfl, congrArg Instr.adcAby (joinBytes_split nn)⟩
theorem adcInx (n : Byte) : Statement (.adcInx n) := ⟨_, rfl, rfl, rfl, rfl⟩
theorem adcIny (n : Byte) : Statement (.adcIny n) := ⟨_, rfl, rfl, rfl, rfl⟩
theorem sbcImm (n : Byte) : Statement (.sbcImm n) := ⟨_, rfl, rfl, rfl, rfl⟩
theorem sbcZp (n : Byte) : Statement (.sbcZp n) := ⟨_, rfl, rfl, rfl, rfl⟩
theorem sbcZpx (n : Byte) : Statement (.sbcZpx n) := ⟨_, rfl, rfl, rfl, rfl⟩
theorem sbcAbs (nn : Word) : Statement (.sbcAbs nn) := ⟨_, rfl, rfl, rfl, congrArg Instr.sbcAbs (joinBytes_split nn)⟩
theorem sbcAbx (nn : Word) : Statement (.sbcAbx nn) := ⟨_, rfl, rfl, rfl, congrArg Instr.sbcAbx (joinBytes_split nn)⟩
theorem sbcAby (nn : Word) : Statement (.sbcAby nn) := ⟨_, rfl, rfl, rfl, congrArg Instr.sbcAby (joinBytes_split nn)⟩
theorem sbcInx (n : Byte) : Statement (.sbcInx n) := ⟨_, rfl, rfl, rfl, rfl⟩
theorem sbcIny (n : Byte) : Statement (.sbcIny n) := ⟨_, rfl, rfl, rfl, rfl⟩
theorem cmpImm (n : Byte) : Statement (.cmpImm n) := ⟨_, rfl, rfl, rfl, rfl⟩
theorem cmpZp (n : Byte) : Statement (.cmpZp n) := ⟨_, rfl, rfl, rfl, rfl⟩
theorem cmpZpx (n : Byte) : Statement (.cmpZpx n) := ⟨_, rfl, rfl, rfl, rfl⟩
theorem cmpAbs (nn : Word) : Statement (.cmpAbs nn) := ⟨_, rfl, rfl, rfl, congrArg Instr.cmpAbs (joinBytes_split nn)⟩
theorem cmpAbx (nn : Word) : Statement (.cmpAbx nn) := ⟨_, rfl, rfl, rfl, congrArg Instr.cmpAbx (joinBytes_split nn)⟩
theorem cmpAby (nn : Word) : Statement (.cmpAby nn) := ⟨_, rfl, rfl, rfl, congrArg Instr.cmpAby (joinBytes_split nn)⟩
theorem cmpInx (n : Byte) : Statement (.cmpInx n) := ⟨_, rfl, rfl, rfl, rfl⟩
theorem cmpIny (n : Byte) : Statement (.cmpIny n) := ⟨_, rfl, rfl, rfl, rfl⟩
theorem cpxImm (n : Byte) : Statement (.cpxImm n) := ⟨_, rfl, rfl, rfl, rfl⟩
theorem cpxZp (n : Byte) : Statement (.cpxZp n) := ⟨_, rfl, rfl, rfl, rfl⟩
theorem cpxAbs (nn : Word) : Statement (.cpxAbs nn) := ⟨_, rfl, rfl, rfl, congrArg Instr.cpxAbs (joinBytes_split nn)⟩
theorem cpyImm (n : Byte) : Statement (.cpyImm n) := ⟨_, rfl, rfl, rfl, rfl⟩
theorem cpyZp (n : Byte) : Statement (.cpyZp n) := ⟨_, rfl, rfl, rfl, rfl⟩
theorem cpyAbs (nn : Word) : Statement (.cpyAbs nn) := ⟨_, rfl, rfl, rfl, congrArg Instr.cpyAbs (joinBytes_split nn)⟩
theorem andImm (n : Byte) : Statement (.andImm n) := ⟨_, rfl, rfl, rfl, rfl⟩
theorem andZp (n : Byte) : Statement (.andZp n) := ⟨_, rfl, rfl, rfl, rfl⟩
theorem andZpx (n : Byte) : Statement (.andZpx n) := ⟨_, rfl, rfl, rfl, rfl⟩
theorem andAbs (nn : Word) : Statement (.andAbs nn) := ⟨_, rfl, rfl, rfl, congrArg Instr.andAbs (joinBytes_split nn)⟩
theorem andAbx (nn : Word) : Statement (.andAbx nn) := ⟨_, rfl, rfl, rfl, congrArg Instr.andAbx (joinBytes_split nn)⟩
theorem andAby (nn : Word) : Statement (.andAby nn) := ⟨_, rfl, rfl, rfl, congrArg Instr.andAby (joinBytes_split nn)⟩
theorem andInx (n : Byte) : Statement (.andInx n) := ⟨_, rfl, rfl, rfl, rfl⟩
theorem andIny (n : Byte) : Statement (.andIny n) := ⟨_, rfl, rfl, rfl, rfl⟩
theorem eorImm (n : Byte) : Statement (.eorImm n) := ⟨_, rfl, rfl, rfl, rfl⟩
theorem eorZp (n : Byte) : Statement (.eorZp n) := ⟨_, rfl, rfl, rfl, rfl⟩
theorem eorZpx (n : Byte) : Statement (.eorZpx n) := ⟨_, rfl, rfl, rfl, rfl⟩
theorem eorAbs (nn : Word) : Statement (.eorAbs nn) := ⟨_, rfl, rfl, rfl, congrArg Instr.eorAbs (joinBytes_split nn)⟩
theorem eorAbx (nn : Word) : Statement (.eorAbx nn) := ⟨_, rfl, rfl, rfl, congrArg Instr.eorAbx (joinBytes_split nn)⟩
theorem eorAby (nn : Word) : Statement (.eorAby nn) := ⟨_, rfl, rfl, rfl, congrArg Instr.eorAby (joinBytes_split nn)⟩
theorem eorInx (n : Byte) : Statement (.eorInx n) := ⟨_, rfl, rfl, rfl, rfl⟩
theorem eorIny (n : Byte) : Statement (.eorIny n) := ⟨_, rfl, rfl, rfl, rfl⟩
theorem oraImm (n : Byte) : Statement (.oraImm n) := ⟨_, rfl, rfl, rfl, rfl⟩
theorem oraZp (n : Byte) : Statement (.oraZp n) := ⟨_, rfl, rfl, rfl, rfl⟩
theorem oraZpx (n : Byte) : Statement (.oraZpx n) := ⟨_, rfl, rfl, rfl, rfl⟩
theorem oraAbs (nn : Word) : Statement (.oraAbs nn) := ⟨_, rfl, rfl, rfl, congrArg Instr.oraAbs (joinBytes_split nn)⟩
theorem oraAbx (nn : Word) : Statement (.oraAbx nn) := ⟨_, rfl, rfl, rfl, congrArg Instr.oraAbx (joinBytes_split nn)⟩
theorem oraAby (nn : Word) : Statement (.oraAby nn) := ⟨_, rfl, rfl, rfl, congrArg Instr.oraAby (joinBytes_split nn)⟩
theorem oraInx (n : Byte) : Statement (.oraInx n) := ⟨_, rfl, rfl, rfl, rfl⟩
theorem oraIny (n : Byte) : Statement (.oraIny n) := ⟨_, rfl, rfl, rfl, rfl⟩
theorem bitZp (n : Byte) : Statement (.bitZp n) := ⟨_, rfl, rfl, rfl, rfl⟩
theorem bitAbs (nn : Word) : Statement (.bitAbs nn) := ⟨_, rfl, rfl, rfl, congrArg Instr.bitAbs (joinBytes_split nn)⟩
theorem aslAcc : Statement (.aslAcc) := ⟨_, rfl, rfl, rfl, rfl⟩
theorem aslZp (n : Byte) : Statement (.aslZp n) := ⟨_, rfl, rfl, rfl, rfl⟩
theorem aslZpx (n : Byte) : Statement (.aslZpx n) := ⟨_, rfl, rfl, rfl, rfl⟩
theorem aslAbs (nn : Word) : Statement (.aslAbs nn) := ⟨_, rfl, rfl, rfl, congrArg Instr.aslAbs (joinBytes_split nn)⟩
theorem aslAbx (nn : Word) : Statement (.aslAbx nn) := ⟨_, rfl, rfl, rfl, congrArg Instr.aslAbx (joinBytes_split nn)⟩
theorem lsrAcc : Statement (.lsrAcc) := ⟨_, rfl, rfl, rfl, rfl⟩
theorem lsrZp (n : Byte) : Statement (.lsrZp n) := ⟨_, rfl, rfl, rfl, rfl⟩
theorem lsrZpx (n : Byte) : Statement (.lsrZpx n) := ⟨_, rfl, rfl, rfl, rfl⟩
theorem lsrAbs (nn : Word) : Statement (.lsrAbs nn) := ⟨_, rfl, rfl, rfl, congrArg Instr.lsrAbs (joinBytes_split nn)⟩
theorem lsrAbx (nn : Word) : Statement (.lsrAbx nn) := ⟨_, rfl, rfl, rfl, congrArg Instr.lsrAbx (joinBytes_split nn)⟩
theorem rolAcc : Statement (.rolAcc) := ⟨_, rfl, rfl, rfl, rfl⟩
theorem rolZp (n : Byte) : Statement (.rolZp n) := ⟨_, rfl, rfl, rfl, rfl⟩
theorem rolZpx (n : Byte) : Statement (.rolZpx n) := ⟨_, rfl, rfl, rfl, rfl⟩
theorem rolAbs (nn : Word) : Statement (.rolAbs nn) := ⟨_, rfl, rfl, rfl, congrArg Instr.rolAbs (joinBytes_split nn)⟩
theorem rolAbx (nn : Word) : Statement (.rolAbx nn) := ⟨_, rfl, rfl, rfl, congrArg Instr.rolAbx (joinBytes_split nn)⟩
theorem rorAcc : Statement (.rorAcc) := ⟨_, rfl, rfl, rfl, rfl⟩
theorem rorZp (n : Byte) : Statement (.rorZp n) := ⟨_, rfl, rfl, rfl, rfl⟩
theorem rorZpx (n : Byte) : Statement (.rorZpx n) := ⟨_, rfl, rfl, rfl, rfl⟩
theorem rorAbs (nn : Word) : Statement (.rorAbs nn) := ⟨_, rfl, rfl, rfl, congrArg Instr.rorAbs (joinBytes_split nn)⟩
theorem rorAbx (nn : Word) : Statement (.rorAbx nn) := ⟨_, rfl, rfl, rfl, congrArg Instr.rorAbx (joinBytes_split nn)⟩
theorem bcc (n : Byte) : Statement (.bcc n) := ⟨_, rfl, rfl, rfl, rfl⟩
theorem bcs (n : Byte) : Statement (.bcs n) := ⟨_, rfl, rfl, rfl, rfl⟩
theorem beq (n : Byte) : Statement (.beq n) := ⟨_, rfl, rfl, rfl, rfl⟩
theorem bne (n : Byte) : Statement (.bne n) := ⟨_, rfl, rfl, rfl, rfl⟩
theorem bmi (n : Byte) : Statement (.bmi n) := ⟨_, rfl, rfl, rfl, rfl⟩
theorem bpl (n : Byte) : Statement (.bpl n) := ⟨_, rfl, rfl, rfl, rfl⟩
theorem bvc (n : Byte) : Statement (.bvc n) := ⟨_, rfl, rfl, rfl, rfl⟩
theorem bvs (n : Byte) : Statement (.bvs n) := ⟨_, rfl, rfl, rfl, rfl⟩
theorem clc : Statement (.clc) := ⟨_, rfl, rfl, rfl, rfl⟩
theorem cld : Statement (.cld) := ⟨_, rfl, rfl, rfl, rfl⟩
theorem cli : Statement (.cli) := ⟨_, rfl, rfl, rfl, rfl⟩
theorem clv : Statement (.clv) := ⟨_, rfl, rfl, rfl, rfl⟩
theorem sec : Statement (.sec) := ⟨_, rfl, rfl, rfl, rfl⟩
theorem sed : Statement (.sed) := ⟨_, rfl, rfl, rfl, rfl⟩
theorem sei : Statement (.sei) := ⟨_, rfl, rfl, rfl, rfl⟩
theorem decZp (n : Byte) : Statement (.decZp n) := ⟨_, rfl, rfl, rfl, rfl⟩
theorem decZpx (n : Byte) : Statement (.decZpx n) := ⟨_, rfl, rfl, rfl, rfl⟩
theorem decAbs (nn : Word) : Statement (.decAbs nn) := ⟨_, rfl, rfl, rfl, congrArg Instr.decAbs (joinBytes_split nn)⟩
theorem decAbx (nn : Word) : Statement (.decAbx nn) := ⟨_, rfl, rfl, rfl, congrArg Instr.decAbx (joinBytes_split nn)⟩
theorem dex : Statement (.dex) := ⟨_, rfl, rfl, rfl, rfl⟩
theorem dey : Statement (.dey) := ⟨_, rfl, rfl, rfl, rfl⟩
theorem incZp (n : Byte) : Statement (.incZp n) := ⟨_, rfl, rfl, rfl, rfl⟩
theorem incZpx (n : Byte) : Statement (.incZpx n) := ⟨_, rfl, rfl, rfl, rfl⟩
theorem incAbs (nn : Word) : Statement (.incAbs nn) := ⟨_, rfl, rfl, rfl, congrArg Instr.incAbs (joinBytes_split nn)⟩
theorem incAbx (nn : Word) : Statement (.incAbx nn) := ⟨_, rfl, rfl, rfl, congrArg Instr.incAbx (joinBytes_split nn)⟩
theorem inx : Statement (.inx) := ⟨_, rfl, rfl, rfl, rfl⟩
theorem iny : Statement (.iny) := ⟨_, rfl, rfl, rfl, rfl⟩
theorem jmpAbs (nn : Word) : Statement (.jmpAbs nn) := ⟨_, rfl, rfl, rfl, congrArg Instr.jmpAbs (joinBytes_split nn)⟩
theorem jmpInd (nn : Word) : Statement (.jmpInd nn) := ⟨_, rfl, rfl, rfl, congrArg Instr.jmpInd (joinBytes_split nn)⟩
theorem jsr (nn : Word) : Statement (.jsr nn) := ⟨_, rfl, rfl, rfl, congrArg Instr.jsr (joinBytes_split nn)⟩
theorem rts : Statement (.rts) := ⟨_, rfl, rfl, rfl, rfl⟩
theorem ldaImm (n : Byte) : Statement (.ldaImm n) := ⟨_, rfl, rfl, rfl, rfl⟩
theorem ldaZp (n : Byte) : Statement (.ldaZp n) := ⟨_, rfl, rfl, rfl, rfl⟩
theorem ldaZpx (n : Byte) : Statement (.ldaZpx n) := ⟨_, rfl, rfl, rfl, rfl⟩
theorem ldaAbs (nn : Word) : Statement (.ldaAbs nn) := ⟨_, rfl, rfl, rfl, congrArg Instr.ldaAbs (joinBytes_split nn)⟩
theorem ldaAbx (nn : Word) : Statement (.ldaAbx nn) := ⟨_, rfl, rfl, rfl, congrArg Instr.ldaAbx (joinBytes_split nn)⟩
theorem ldaAby (nn : Word) : Statement (.ldaAby nn) := ⟨_, rfl, rfl, rfl, congrArg Instr.ldaAby (joinBytes_split nn)⟩
theorem ldaInx (n : Byte) : Statement (.ldaInx n) := ⟨_, rfl, rfl, rfl, rfl⟩
theorem ldaIny (n : Byte) : Statement (.ldaIny n) := ⟨_, rfl, rfl, rfl, rfl⟩
theorem ldxImm (n : Byte) : Statement (.ldxImm n) := ⟨_, rfl, rfl, rfl, rfl⟩
theorem ldxZp (n : Byte) : Statement (.ldxZp n) := ⟨_, rfl, rfl, rfl, rfl⟩
theorem ldxZpy (n : Byte) : Statement (.ldxZpy n) := ⟨_, rfl, rfl, rfl, rfl⟩
theorem ldxAbs (nn : Word) : Statement (.ldxAbs nn) := ⟨_, rfl, rfl, rfl, congrArg Instr.ldxAbs (joinBytes_split nn)⟩
theorem ldxAby (nn : Word) : Statement (.ldxAby nn) := ⟨_, rfl, rfl, rfl, congrArg Instr.ldxAby (joinBytes_split nn)⟩
theorem ldyImm (n : Byte) : Statement (.ldyImm n) := ⟨_, rfl, rfl, rfl, rfl⟩
theorem ldyZp (n : Byte) : Statement (.ldyZp n) := ⟨_, rfl, rfl, rfl, rfl⟩
theorem ldyZpx (n : Byte) : Statement (.ldyZpx n) := ⟨_, rfl, rfl, rfl, rfl⟩
theorem ldyAbs (nn : Word) : Statement (.ldyAbs nn) := ⟨_, rfl, rfl, rfl, congrArg Instr.ldyAbs (joinBytes_split nn)⟩
theorem ldyAbx (nn : Word) : Statement (.ldyAbx nn) := ⟨_, rfl, rfl, rfl, congrArg Instr.ldyAbx (joinBytes_split nn)⟩
theorem staZp (n : Byte) : Statement (.staZp n) := ⟨_, rfl, rfl, rfl, rfl⟩
theorem staZpx (n : Byte) : Statement (.staZpx n) := ⟨_, rfl, rfl, rfl, rfl⟩
theorem staAbs (nn : Word) : Statement (.staAbs nn) := ⟨_, rfl, rfl, rfl, congrArg Instr.staAbs (joinBytes_split nn)⟩
theorem staAbx (nn : Word) : Statement (.staAbx nn) := ⟨_, rfl, rfl, rfl, congrArg Instr.staAbx (joinBytes_split nn)⟩
theorem staAby (nn : Word) : Statement (.staAby nn) := ⟨_, rfl, rfl, rfl, congrArg Instr.staAby (joinBytes_split nn)⟩
theorem staInx (n : Byte) : Statement (.staInx n) := ⟨_, rfl, rfl, rfl, rfl⟩
theorem staIny (n : Byte) : Statement (.staIny n) := ⟨_, rfl, rfl, rfl, rfl⟩
theorem stxZp (n : Byte) : Statement (.stxZp n) := ⟨_, rfl, rfl, rfl, rfl⟩
theorem stxZpy (n : Byte) : Statement (.stxZpy n) := ⟨_, rfl, rfl, rfl, rfl⟩
theorem stxAbs (nn : Word) : Statement (.stxAbs nn) := ⟨_, rfl, rfl, rfl, congrArg Instr.stxAbs (joinBytes_split nn)⟩
theorem styZp (n : Byte) : Statement (.styZp n) := ⟨_, rfl, rfl, rfl, rfl⟩
theorem styZpx (n : Byte) : Statement (.styZpx n) := ⟨_, rfl, rfl, rfl, rfl⟩
theorem styAbs (nn : Word) : Statement (.styAbs nn) := ⟨_, rfl, rfl, rfl, congrArg Instr.styAbs (joinBytes_split nn)⟩
theorem pha : Statement (.pha) := ⟨_, rfl, rfl, rfl, rfl⟩
theorem php : Statement (.php) := ⟨_, rfl, rfl, rfl, rfl⟩
theorem pla : Statement (.pla) := ⟨_, rfl, rfl, rfl, rfl⟩
theorem plp : Statement (.plp) := ⟨_, rfl, rfl, rfl, rfl⟩
theorem tax : Statement (.tax) := ⟨_, rfl, rfl, rfl, rfl⟩
theorem tay : Statement (.tay) := ⟨_, rfl, rfl, rfl, rfl⟩
theorem tsx : Statement (.tsx) := ⟨_, rfl, rfl, rfl, rfl⟩
theorem txa : Statement (.txa) := ⟨_, rfl, rfl, rfl, rfl⟩
theorem txs : Statement (.txs) := ⟨_, rfl, rfl, rfl, rfl⟩
theorem tya : Statement (.tya) := ⟨_, rfl, rfl, rfl, rfl⟩
theorem brk : Statement (.brk) := ⟨_, rfl, rfl, rfl, rfl⟩
theorem rti : Statement (.rti) := ⟨_, rfl, rfl, rfl, rfl⟩
theorem nop : Statement (.nop) := ⟨_, rfl, rfl, rfl, rfl⟩

end Sys2Proof.Laws.OpcodeRow
end

