-- ==== Sys2Proof/Laws/Step.lean ====
section
/-! SUPPORT. All that one step can do. -/

namespace Sys2Proof.Machine

/-- The memory after reset has the canonical form. -/
theorem reset_mem_wf : State.reset.mem.wf = true := rfl

theorem withFetchWord_mem_wf (s : State) (nbits w : Nat) (hwf : s.mem.wf = true) :
    (s.withFetchWord nbits w).mem.wf = true := placeBytes_wf _ _ _ _ hwf

theorem spendOn_next {k : Nat} {o : Host.Outcome State Fault Refusal} {t : State} (h : spendOn k o = .next t) :
    ∃ u, o = .next u ∧ t = u.spend k := by
  cases o <;> simp [spendOn] at h
  exact ⟨_, rfl, h.symm⟩

theorem runInstruction_next {s t : State} (h : runInstruction s = .next t) :
    ∃ i u, s.fetch = .ok i ∧ exec i s = .next u ∧ t = u.spend (cyclesOf i s) := by
  unfold runInstruction at h
  split at h
  · simp at h
  · next i hi =>
    obtain ⟨u, hu, rfl⟩ := spendOn_next h
    exact ⟨i, u, hi, hu, rfl⟩

/-- If a step answers a next state, it is that of one of the three entries or of one instruction (R228). -/
theorem step_next_cases {s t : State} (h : step s = .next t) :
    (s.event = .reset ∧ t = s.atBoundary.enterReset.spend entryCycles) ∨
    (s.event = .nmi ∧ t = s.atBoundary.enterNmi.spend entryCycles) ∨
    (s.event = .irq ∧ t = s.atBoundary.enterIrq.spend entryCycles) ∨
    (s.event = .instruction ∧ ∃ i u, s.atBoundary.fetch = .ok i ∧ exec i s.atBoundary = .next u ∧
      t = u.spend (cyclesOf i s.atBoundary)) := by
  unfold step at h
  cases he : s.event <;> simp only [he, Host.Outcome.next.injEq, reduceCtorEq, false_and, true_and, or_false, false_or]
    at h ⊢
  · exact h.symm
  · exact h.symm
  · exact h.symm
  · exact runInstruction_next h

end Sys2Proof.Machine
end

