-- ==== Sys2Proof/Tests/Slice0.lean ====
section
/-! SUPPORT. Tests. The expected values are those of the spec: the words of its encoding tables and the worked examples of
its instruction rules. The witnesses show, for each statement with hypotheses, that they can hold together. -/

open Sys2Proof Sys2Proof.Machine

namespace Sys2Proof.Tests

/-! ### Helpers -/

/-- Bytes put at an address. -/
def poke (s : State) (addr : Word) (bytes : List Byte) : State :=
  { s with mem := placeBytes s.params addr bytes s.mem }

/-- P with the listed flags set and the others clear. -/
def flags (set : List FlagName) : Flags :=
  ⟨decide (.n ∈ set), decide (.v ∈ set), decide (.d ∈ set), decide (.i ∈ set), decide (.z ∈ set), decide (.c ∈ set)⟩

/-- A state with a clear P and S = 0xFF, about to run the given bytes at 0x0600. -/
def at0600 (bytes : List Byte) : State :=
  poke { State.reset with pc := 0x0600#16, sp := 0xFF#8, p := flags [] } 0x0600#16 bytes

/-- The state with the listed flags set and the others clear. -/
def withFlags (set : List FlagName) (s : State) : State := { s with p := flags set }

/-- Whether one step goes on to a state of which `f` gives `v`. -/
def leads {α : Type} [DecidableEq α] (s : State) (f : State → α) (v : α) : Bool :=
  match step s with
  | .next t => decide (f t = v)
  | .fault _ => false
  | .refused _ => false

/-- Whether one step is refused for the given reason. -/
def refuses (s : State) (r : Refusal) : Bool :=
  match step s with
  | .next _ => false
  | .fault _ => false
  | .refused r' => decide (r' = r)

/-- Whether each word decodes to its instruction, with nothing left over, and is what the encoder gives for it. -/
def decodesTo (rows : List (List Byte × Instr)) : Bool :=
  rows.all fun r =>
    (match decode r.1 with
      | .ok (i, []) => decide (i = r.2)
      | .ok (_, _ :: _) => false
      | .error _ => false) && decide (encode r.2 = r.1)

/-- Parameters that refuse what R7's defaults refuse, on a machine with a ROM at 0xF000, a device at 0xD000 and nothing at
0xC000. -/
def platform : Params :=
  { hasRor := false, memMap := [⟨0xF000, 0x1000, .rom⟩, ⟨0xD000, 0x1000, .io⟩, ⟨0xC000, 0x1000, .unpopulated⟩],
    stackInPageZero := true, zpPtrCross := .refuse, jmpIndCross := .refuse, decimalMode := .bcdValidOnly, soPinUsed := false }

/-! ### Well-formedness -/

/-- The one check of `wellFormed` refuses ROR on a part without it (R8), and takes the rest. -/
theorem test_wellFormed_refuses_ror_on_a_part_without_it : Instr.wellFormed platform .rorAcc = false := by decide
theorem test_wellFormed_takes_ror_on_a_part_with_it : Instr.wellFormed resetParams .rorAcc = true := by decide
theorem test_wellFormed_takes_rol_on_any_part : Instr.wellFormed platform .rolAcc = true := by decide

/-! ### Decoding -/

/-- The words of the encoding tables of spec 40_arithmetic.md. -/
theorem test_decode_arithmetic : (
    decodesTo [
      ([0x69#8, 0xA5#8], .adcImm 0xA5#8), ([0x6D#8, 0x34#8, 0x12#8], .adcAbs 0x1234#16),
      ([0x65#8, 0xA5#8], .adcZp 0xA5#8), ([0x61#8, 0xA5#8], .adcInx 0xA5#8), ([0x71#8, 0xA5#8], .adcIny 0xA5#8),
      ([0x75#8, 0xA5#8], .adcZpx 0xA5#8), ([0x7D#8, 0x34#8, 0x12#8], .adcAbx 0x1234#16),
      ([0x79#8, 0x34#8, 0x12#8], .adcAby 0x1234#16), ([0xE9#8, 0xA5#8], .sbcImm 0xA5#8)] &&
    decodesTo [
      ([0xED#8, 0x34#8, 0x12#8], .sbcAbs 0x1234#16), ([0xE5#8, 0xA5#8], .sbcZp 0xA5#8),
      ([0xE1#8, 0xA5#8], .sbcInx 0xA5#8), ([0xF1#8, 0xA5#8], .sbcIny 0xA5#8), ([0xF5#8, 0xA5#8], .sbcZpx 0xA5#8),
      ([0xFD#8, 0x34#8, 0x12#8], .sbcAbx 0x1234#16), ([0xF9#8, 0x34#8, 0x12#8], .sbcAby 0x1234#16),
      ([0xC9#8, 0xA5#8], .cmpImm 0xA5#8), ([0xCD#8, 0x34#8, 0x12#8], .cmpAbs 0x1234#16)] &&
    decodesTo [
      ([0xC5#8, 0xA5#8], .cmpZp 0xA5#8), ([0xC1#8, 0xA5#8], .cmpInx 0xA5#8), ([0xD1#8, 0xA5#8], .cmpIny 0xA5#8),
      ([0xD5#8, 0xA5#8], .cmpZpx 0xA5#8), ([0xDD#8, 0x34#8, 0x12#8], .cmpAbx 0x1234#16),
      ([0xD9#8, 0x34#8, 0x12#8], .cmpAby 0x1234#16), ([0xE0#8, 0xA5#8], .cpxImm 0xA5#8),
      ([0xEC#8, 0x34#8, 0x12#8], .cpxAbs 0x1234#16), ([0xE4#8, 0xA5#8], .cpxZp 0xA5#8)] &&
    decodesTo [
      ([0xC0#8, 0xA5#8], .cpyImm 0xA5#8), ([0xCC#8, 0x34#8, 0x12#8], .cpyAbs 0x1234#16),
      ([0xC4#8, 0xA5#8], .cpyZp 0xA5#8)]) = true := by decide

/-- The words of the encoding tables of spec 41_logic.md. -/
theorem test_decode_logic : (
    decodesTo [
      ([0x29#8, 0xA5#8], .andImm 0xA5#8), ([0x2D#8, 0x34#8, 0x12#8], .andAbs 0x1234#16),
      ([0x25#8, 0xA5#8], .andZp 0xA5#8), ([0x21#8, 0xA5#8], .andInx 0xA5#8), ([0x31#8, 0xA5#8], .andIny 0xA5#8),
      ([0x35#8, 0xA5#8], .andZpx 0xA5#8), ([0x3D#8, 0x34#8, 0x12#8], .andAbx 0x1234#16),
      ([0x39#8, 0x34#8, 0x12#8], .andAby 0x1234#16), ([0x49#8, 0xA5#8], .eorImm 0xA5#8)] &&
    decodesTo [
      ([0x4D#8, 0x34#8, 0x12#8], .eorAbs 0x1234#16), ([0x45#8, 0xA5#8], .eorZp 0xA5#8),
      ([0x41#8, 0xA5#8], .eorInx 0xA5#8), ([0x51#8, 0xA5#8], .eorIny 0xA5#8), ([0x55#8, 0xA5#8], .eorZpx 0xA5#8),
      ([0x5D#8, 0x34#8, 0x12#8], .eorAbx 0x1234#16), ([0x59#8, 0x34#8, 0x12#8], .eorAby 0x1234#16),
      ([0x09#8, 0xA5#8], .oraImm 0xA5#8), ([0x0D#8, 0x34#8, 0x12#8], .oraAbs 0x1234#16)] &&
    decodesTo [
      ([0x05#8, 0xA5#8], .oraZp 0xA5#8), ([0x01#8, 0xA5#8], .oraInx 0xA5#8), ([0x11#8, 0xA5#8], .oraIny 0xA5#8),
      ([0x15#8, 0xA5#8], .oraZpx 0xA5#8), ([0x1D#8, 0x34#8, 0x12#8], .oraAbx 0x1234#16),
      ([0x19#8, 0x34#8, 0x12#8], .oraAby 0x1234#16), ([0x2C#8, 0x34#8, 0x12#8], .bitAbs 0x1234#16),
      ([0x24#8, 0xA5#8], .bitZp 0xA5#8)]) = true := by decide

/-- The words of the encoding tables of spec 42_shift_rotate.md. -/
theorem test_decode_shift_rotate : (
    decodesTo [
      ([0x0E#8, 0x34#8, 0x12#8], .aslAbs 0x1234#16), ([0x06#8, 0xA5#8], .aslZp 0xA5#8), ([0x0A#8], .aslAcc),
      ([0x16#8, 0xA5#8], .aslZpx 0xA5#8), ([0x1E#8, 0x34#8, 0x12#8], .aslAbx 0x1234#16),
      ([0x4E#8, 0x34#8, 0x12#8], .lsrAbs 0x1234#16), ([0x46#8, 0xA5#8], .lsrZp 0xA5#8), ([0x4A#8], .lsrAcc),
      ([0x56#8, 0xA5#8], .lsrZpx 0xA5#8), ([0x5E#8, 0x34#8, 0x12#8], .lsrAbx 0x1234#16)] &&
    decodesTo [
      ([0x2E#8, 0x34#8, 0x12#8], .rolAbs 0x1234#16), ([0x26#8, 0xA5#8], .rolZp 0xA5#8), ([0x2A#8], .rolAcc),
      ([0x36#8, 0xA5#8], .rolZpx 0xA5#8), ([0x3E#8, 0x34#8, 0x12#8], .rolAbx 0x1234#16),
      ([0x6E#8, 0x34#8, 0x12#8], .rorAbs 0x1234#16), ([0x66#8, 0xA5#8], .rorZp 0xA5#8), ([0x6A#8], .rorAcc),
      ([0x76#8, 0xA5#8], .rorZpx 0xA5#8), ([0x7E#8, 0x34#8, 0x12#8], .rorAbx 0x1234#16)]) = true := by decide

/-- The words of the encoding tables of spec 43_branch.md. -/
theorem test_decode_branch : (
    decodesTo [
      ([0x90#8, 0xA5#8], .bcc 0xA5#8), ([0xB0#8, 0xA5#8], .bcs 0xA5#8), ([0xF0#8, 0xA5#8], .beq 0xA5#8),
      ([0xD0#8, 0xA5#8], .bne 0xA5#8), ([0x30#8, 0xA5#8], .bmi 0xA5#8), ([0x10#8, 0xA5#8], .bpl 0xA5#8),
      ([0x50#8, 0xA5#8], .bvc 0xA5#8), ([0x70#8, 0xA5#8], .bvs 0xA5#8)]) = true := by decide

/-- The words of the encoding tables of spec 44_flag.md. -/
theorem test_decode_flag : (
    decodesTo [
      ([0x18#8], .clc), ([0xD8#8], .cld), ([0x58#8], .cli), ([0xB8#8], .clv), ([0x38#8], .sec), ([0xF8#8], .sed),
      ([0x78#8], .sei)]) = true := by decide

/-- The words of the encoding tables of spec 45_incdec.md. -/
theorem test_decode_incdec : (
    decodesTo [
      ([0xCE#8, 0x34#8, 0x12#8], .decAbs 0x1234#16), ([0xC6#8, 0xA5#8], .decZp 0xA5#8),
      ([0xD6#8, 0xA5#8], .decZpx 0xA5#8), ([0xDE#8, 0x34#8, 0x12#8], .decAbx 0x1234#16),
      ([0xEE#8, 0x34#8, 0x12#8], .incAbs 0x1234#16), ([0xE6#8, 0xA5#8], .incZp 0xA5#8),
      ([0xF6#8, 0xA5#8], .incZpx 0xA5#8), ([0xFE#8, 0x34#8, 0x12#8], .incAbx 0x1234#16), ([0xCA#8], .dex)] &&
    decodesTo [
      ([0x88#8], .dey), ([0xE8#8], .inx), ([0xC8#8], .iny)]) = true := by decide

/-- The words of the encoding tables of spec 46_jump_subroutine.md. -/
theorem test_decode_jump_subroutine : (
    decodesTo [
      ([0x4C#8, 0x34#8, 0x12#8], .jmpAbs 0x1234#16), ([0x6C#8, 0x34#8, 0x12#8], .jmpInd 0x1234#16),
      ([0x20#8, 0x34#8, 0x12#8], .jsr 0x1234#16), ([0x60#8], .rts)]) = true := by decide

/-- The words of the encoding tables of spec 47_load_store.md. -/
theorem test_decode_load_store : (
    decodesTo [
      ([0xA9#8, 0xA5#8], .ldaImm 0xA5#8), ([0xAD#8, 0x34#8, 0x12#8], .ldaAbs 0x1234#16),
      ([0xA5#8, 0xA5#8], .ldaZp 0xA5#8), ([0xA1#8, 0xA5#8], .ldaInx 0xA5#8), ([0xB1#8, 0xA5#8], .ldaIny 0xA5#8),
      ([0xB5#8, 0xA5#8], .ldaZpx 0xA5#8), ([0xBD#8, 0x34#8, 0x12#8], .ldaAbx 0x1234#16),
      ([0xB9#8, 0x34#8, 0x12#8], .ldaAby 0x1234#16), ([0xA2#8, 0xA5#8], .ldxImm 0xA5#8)] &&
    decodesTo [
      ([0xAE#8, 0x34#8, 0x12#8], .ldxAbs 0x1234#16), ([0xA6#8, 0xA5#8], .ldxZp 0xA5#8),
      ([0xBE#8, 0x34#8, 0x12#8], .ldxAby 0x1234#16), ([0xB6#8, 0xA5#8], .ldxZpy 0xA5#8),
      ([0xA0#8, 0xA5#8], .ldyImm 0xA5#8), ([0xAC#8, 0x34#8, 0x12#8], .ldyAbs 0x1234#16),
      ([0xA4#8, 0xA5#8], .ldyZp 0xA5#8), ([0xB4#8, 0xA5#8], .ldyZpx 0xA5#8)] &&
    decodesTo [
      ([0xBC#8, 0x34#8, 0x12#8], .ldyAbx 0x1234#16), ([0x8D#8, 0x34#8, 0x12#8], .staAbs 0x1234#16),
      ([0x85#8, 0xA5#8], .staZp 0xA5#8), ([0x81#8, 0xA5#8], .staInx 0xA5#8), ([0x91#8, 0xA5#8], .staIny 0xA5#8),
      ([0x95#8, 0xA5#8], .staZpx 0xA5#8), ([0x9D#8, 0x34#8, 0x12#8], .staAbx 0x1234#16),
      ([0x99#8, 0x34#8, 0x12#8], .staAby 0x1234#16), ([0x8E#8, 0x34#8, 0x12#8], .stxAbs 0x1234#16)] &&
    decodesTo [
      ([0x86#8, 0xA5#8], .stxZp 0xA5#8), ([0x96#8, 0xA5#8], .stxZpy 0xA5#8),
      ([0x8C#8, 0x34#8, 0x12#8], .styAbs 0x1234#16), ([0x84#8, 0xA5#8], .styZp 0xA5#8),
      ([0x94#8, 0xA5#8], .styZpx 0xA5#8)]) = true := by decide

/-- The words of the encoding tables of spec 48_stack_transfer.md. -/
theorem test_decode_stack_transfer : (
    decodesTo [
      ([0x48#8], .pha), ([0x08#8], .php), ([0x68#8], .pla), ([0x28#8], .plp), ([0xAA#8], .tax), ([0xA8#8], .tay),
      ([0xBA#8], .tsx), ([0x8A#8], .txa), ([0x9A#8], .txs), ([0x98#8], .tya)]) = true := by decide

/-- The words of the encoding tables of spec 49_system.md. -/
theorem test_decode_system : (
    decodesTo [
      ([0x00#8], .brk), ([0x40#8], .rti), ([0xEA#8], .nop)]) = true := by decide

/-! ### The worked examples of the spec, one step each -/

theorem test_adc_example :
    leads ({ at0600 [0x69#8, 0x50#8] with a := 0x50#8 })
      (fun t => (t.a, t.p)) (0xA0#8, flags [.n, .v]) = true := by decide

/-- The sum 58 + 46 + 1 = 105 by the formula of R122. -/
theorem test_adc_decimal :
    leads ({ withFlags [.d, .c] (at0600 [0x69#8, 0x46#8]) with a := 0x58#8 })
      (fun t => (t.a, t.p.c)) (0x05#8, true) = true := by decide

theorem test_sbc_example :
    leads ({ withFlags [.c] (at0600 [0xE9#8, 0xF0#8]) with a := 0x50#8 })
      (fun t => (t.a, t.p)) (0x60#8, flags []) = true := by decide

/-- The difference 46 - 12 = 34 by the formula of R122. -/
theorem test_sbc_decimal :
    leads ({ withFlags [.d, .c] (at0600 [0xE9#8, 0x12#8]) with a := 0x46#8 })
      (fun t => (t.a, t.p.c)) (0x34#8, true) = true := by decide

theorem test_cmp_example :
    leads ({ at0600 [0xC9#8, 0x41#8] with a := 0x40#8 })
      (fun t => (t.a, t.p)) (0x40#8, flags [.n]) = true := by decide

theorem test_cpx_example :
    leads ({ at0600 [0xE0#8, 0x10#8] with x := 0x10#8 })
      (fun t => (t.x, t.p)) (0x10#8, flags [.z, .c]) = true := by decide

theorem test_cpy_example :
    leads (poke (at0600 [0xC4#8, 0x20#8]) 0x0020#16 [0x01#8])
      (fun t => (t.y, t.p)) (0x00#8, flags [.n]) = true := by decide

theorem test_and_example :
    leads ({ at0600 [0x29#8, 0xAA#8] with a := 0xCC#8 })
      (fun t => (t.a, t.p)) (0x88#8, flags [.n]) = true := by decide

theorem test_eor_example :
    leads ({ at0600 [0x49#8, 0xAA#8] with a := 0xCC#8 })
      (fun t => (t.a, t.p)) (0x66#8, flags []) = true := by decide

theorem test_ora_example :
    leads ({ at0600 [0x09#8, 0xAA#8] with a := 0xCC#8 })
      (fun t => (t.a, t.p)) (0xEE#8, flags [.n]) = true := by decide

theorem test_bit_example :
    leads ({ poke (at0600 [0x24#8, 0x40#8]) 0x0040#16 [0xC0#8] with a := 0x01#8 })
      (fun t => (t.a, t.p)) (0x01#8, flags [.n, .v, .z]) = true := by decide

theorem test_asl_example :
    leads ({ at0600 [0x0A#8] with a := 0x81#8 })
      (fun t => (t.a, t.p)) (0x02#8, flags [.c]) = true := by decide

/-- The corner v = 0x40 of R140, in a memory form. -/
theorem test_asl_memory :
    leads ({ poke (at0600 [0x06#8, 0x10#8]) 0x0010#16 [0x40#8] with a := 0x33#8 })
      (fun t => (t.a, t.mem.read 0x10, t.p)) (0x33#8, 0x80#8, flags [.n]) = true := by decide

theorem test_lsr_example :
    leads ({ at0600 [0x4A#8] with a := 0x03#8 })
      (fun t => (t.a, t.p)) (0x01#8, flags [.c]) = true := by decide

theorem test_rol_example :
    leads ({ withFlags [.c] (at0600 [0x2A#8]) with a := 0x40#8 })
      (fun t => (t.a, t.p)) (0x81#8, flags [.n]) = true := by decide

theorem test_ror_example :
    leads ({ withFlags [.c] (at0600 [0x6A#8]) with a := 0x02#8 })
      (fun t => (t.a, t.p)) (0x81#8, flags [.n]) = true := by decide

theorem test_bcc_example :
    leads (at0600 [0x90#8, 0x04#8])
      (fun t => t.pc) 0x0606#16 = true := by decide

theorem test_bcc_not_taken :
    leads (withFlags [.c] (at0600 [0x90#8, 0x04#8]))
      (fun t => t.pc) 0x0602#16 = true := by decide

theorem test_bcs_example :
    leads (withFlags [.c] (at0600 [0xB0#8, 0xFC#8]))
      (fun t => t.pc) 0x05FE#16 = true := by decide

theorem test_beq_example :
    leads (withFlags [.z] (at0600 [0xF0#8, 0x10#8]))
      (fun t => t.pc) 0x0612#16 = true := by decide

theorem test_bne_example :
    leads ({ at0600 [] with pc := 0x0605#16, mem := [(0x0605, 0xD0#8), (0x0606, 0xFD#8)] })
      (fun t => t.pc) 0x0604#16 = true := by decide

theorem test_bmi_example :
    leads (withFlags [.n] (at0600 [0x30#8, 0x02#8]))
      (fun t => t.pc) 0x0604#16 = true := by decide

theorem test_bpl_example :
    leads (at0600 [0x10#8, 0xFE#8])
      (fun t => t.pc) 0x0600#16 = true := by decide

theorem test_bvc_example :
    leads (at0600 [0x50#8, 0x7F#8])
      (fun t => t.pc) 0x0681#16 = true := by decide

theorem test_bvs_example :
    leads (withFlags [.v] (at0600 [0x70#8, 0x80#8]))
      (fun t => t.pc) 0x0582#16 = true := by decide

theorem test_clc_example :
    leads (withFlags [.c] (at0600 [0x18#8]))
      (fun t => t.p) (flags []) = true := by decide

theorem test_cld_example :
    leads (withFlags [.d] (at0600 [0xD8#8]))
      (fun t => t.p) (flags []) = true := by decide

theorem test_cli_example :
    leads (withFlags [.i] (at0600 [0x58#8]))
      (fun t => t.p) (flags []) = true := by decide

theorem test_clv_example :
    leads (withFlags [.v] (at0600 [0xB8#8]))
      (fun t => t.p) (flags []) = true := by decide

theorem test_sec_example :
    leads (at0600 [0x38#8])
      (fun t => t.p) (flags [.c]) = true := by decide

theorem test_sed_example :
    leads (at0600 [0xF8#8])
      (fun t => t.p) (flags [.d]) = true := by decide

theorem test_sei_example :
    leads (at0600 [0x78#8])
      (fun t => t.p) (flags [.i]) = true := by decide

theorem test_dec_example :
    leads (poke (at0600 [0xC6#8, 0x10#8]) 0x0010#16 [0x01#8])
      (fun t => (t.mem.read 0x10, t.p)) (0x00#8, flags [.z]) = true := by decide

theorem test_dex_example :
    leads ({ at0600 [0xCA#8] with x := 0x03#8 })
      (fun t => (t.x, t.p)) (0x02#8, flags []) = true := by decide

theorem test_dey_example :
    leads ({ at0600 [0x88#8] with y := 0x00#8 })
      (fun t => (t.y, t.p)) (0xFF#8, flags [.n]) = true := by decide

theorem test_inc_example :
    leads (poke (at0600 [0xEE#8, 0x00#8, 0x02#8]) 0x0200#16 [0xFF#8])
      (fun t => (t.mem.read 0x200, t.p)) (0x00#8, flags [.z]) = true := by decide

theorem test_inx_example :
    leads ({ at0600 [0xE8#8] with x := 0x7F#8 })
      (fun t => (t.x, t.p)) (0x80#8, flags [.n]) = true := by decide

theorem test_iny_example :
    leads ({ at0600 [0xC8#8] with y := 0xFF#8 })
      (fun t => (t.y, t.p)) (0x00#8, flags [.z]) = true := by decide

theorem test_jmp_example :
    leads (at0600 [0x4C#8, 0x34#8, 0x12#8])
      (fun t => t.pc) 0x1234#16 = true := by decide

theorem test_jmp_indirect_example :
    leads (poke (at0600 [0x6C#8, 0x00#8, 0x03#8]) 0x0300#16 [0x78#8, 0x56#8])
      (fun t => t.pc) 0x5678#16 = true := by decide

theorem test_jsr_example :
    leads (at0600 [0x20#8, 0x00#8, 0x08#8])
      (fun t => (t.mem.read 0x1FF, t.mem.read 0x1FE, t.sp, t.pc)) (0x06#8, 0x02#8, 0xFD#8, 0x0800#16) = true := by decide

theorem test_rts_example :
    leads ({ poke (at0600 [0x60#8]) 0x01FE#16 [0x02#8, 0x06#8] with sp := 0xFD#8 })
      (fun t => (t.pc, t.sp)) (0x0603#16, 0xFF#8) = true := by decide

theorem test_lda_example :
    leads (at0600 [0xA9#8, 0x80#8])
      (fun t => (t.a, t.p)) (0x80#8, flags [.n]) = true := by decide

/-- The pointer 0x0300 at 0x20, plus Y = 1 (R89). -/
theorem test_lda_indirect_indexed :
    leads ({ poke (poke (at0600 [0xB1#8, 0x20#8]) 0x0020#16 [0x00#8, 0x03#8]) 0x0301#16 [0x20#8] with y := 0x01#8 })
      (fun t => t.a) 0x20#8 = true := by decide

theorem test_ldx_example :
    leads ({ poke (at0600 [0xB6#8, 0x10#8]) 0x0012#16 [0x7F#8] with y := 0x02#8 })
      (fun t => (t.x, t.p)) (0x7F#8, flags []) = true := by decide

theorem test_ldy_example :
    leads ({ at0600 [0xA0#8, 0x00#8] with y := 0x55#8 })
      (fun t => (t.y, t.p)) (0x00#8, flags [.z]) = true := by decide

theorem test_sta_example :
    leads ({ at0600 [0x8D#8, 0x00#8, 0x02#8] with a := 0x42#8 })
      (fun t => (t.mem.read 0x200, t.p)) (0x42#8, flags []) = true := by decide

theorem test_stx_example :
    leads ({ at0600 [0x96#8, 0x02#8] with x := 0x05#8, y := 0xFF#8 })
      (fun t => t.mem.read 0x01) 0x05#8 = true := by decide

theorem test_sty_example :
    leads ({ at0600 [0x84#8, 0x20#8] with y := 0x09#8 })
      (fun t => t.mem.read 0x20) 0x09#8 = true := by decide

theorem test_pha_example :
    leads ({ at0600 [0x48#8] with a := 0x42#8 })
      (fun t => (t.mem.read 0x1FF, t.sp)) (0x42#8, 0xFE#8) = true := by decide

theorem test_php_example :
    leads (withFlags [.i, .z, .c] (at0600 [0x08#8]))
      (fun t => (t.mem.read 0x1FF, t.sp)) (0x37#8, 0xFE#8) = true := by decide

theorem test_pla_example :
    leads ({ at0600 [0x68#8] with a := 0x55#8, sp := 0xFE#8 })
      (fun t => (t.a, t.sp, t.p)) (0x00#8, 0xFF#8, flags [.z]) = true := by decide

theorem test_plp_example :
    leads ({ poke (at0600 [0x28#8]) 0x01FF#16 [0xC3#8] with sp := 0xFE#8 })
      (fun t => (t.sp, t.p)) (0xFF#8, flags [.n, .v, .z, .c]) = true := by decide

theorem test_tax_example :
    leads ({ at0600 [0xAA#8] with a := 0x80#8 })
      (fun t => (t.x, t.p)) (0x80#8, flags [.n]) = true := by decide

theorem test_tay_example :
    leads ({ at0600 [0xA8#8] with y := 0x55#8 })
      (fun t => (t.y, t.p)) (0x00#8, flags [.z]) = true := by decide

theorem test_tsx_example :
    leads ({ at0600 [0xBA#8] with sp := 0xFD#8 })
      (fun t => (t.x, t.p)) (0xFD#8, flags [.n]) = true := by decide

theorem test_txa_example :
    leads ({ at0600 [0x8A#8] with x := 0x01#8 })
      (fun t => (t.a, t.p)) (0x01#8, flags []) = true := by decide

theorem test_txs_example :
    leads ({ withFlags [.z] (at0600 [0x9A#8]) with x := 0xFF#8, sp := 0x00#8 })
      (fun t => (t.sp, t.p)) (0xFF#8, flags [.z]) = true := by decide

theorem test_tya_example :
    leads ({ at0600 [0x98#8] with y := 0xFF#8 })
      (fun t => (t.a, t.p)) (0xFF#8, flags [.n]) = true := by decide

theorem test_brk_example :
    leads (withFlags [.c] (poke (at0600 [0x00#8]) 0xFFFE#16 [0x00#8, 0x09#8]))
      (fun t => (t.mem.read 0x1FF, t.mem.read 0x1FE, t.mem.read 0x1FD, t.sp, t.p.i, t.pc)) (0x06#8, 0x02#8, 0x31#8, 0xFC#8, true, 0x0900#16) = true := by decide

theorem test_rti_example :
    leads ({ poke (at0600 [0x40#8]) 0x01FD#16 [0x31#8, 0x02#8, 0x06#8] with sp := 0xFC#8 })
      (fun t => (t.pc, t.sp, t.p)) (0x0602#16, 0xFF#8, flags [.c]) = true := by decide

theorem test_nop_example :
    leads (at0600 [0xEA#8])
      (fun t => (t.pc, t.p, t.cycles)) (0x0601#16, flags [], 2) = true := by decide

/-! ### Refusals, parameters, interrupts -/

theorem test_undefined_opcode_refused :
    refuses (at0600 [0x02#8]) (.undefinedOpcode 0x02#8) = true := by decide

theorem test_ror_refused_without_ror :
    refuses ({ at0600 [0x6A#8] with params := platform }) (.undefinedOpcode 0x6A#8) = true := by decide

theorem test_pointer_at_the_end_of_page_zero_refused :
    refuses ({ at0600 [0xA1#8, 0xFF#8] with params := platform }) .zeroPagePointerCross = true := by decide

theorem test_jump_pointer_at_the_end_of_a_page_refused :
    refuses ({ at0600 [0x6C#8, 0xFF#8, 0x03#8] with params := platform }) .jmpIndirectCross = true := by decide

theorem test_decimal_of_no_bcd_refused :
    refuses ({ withFlags [.d] (at0600 [0x69#8, 0x0A#8]) with params := platform }) .decimalInvalidBcd = true := by decide

theorem test_decimal_refused :
    refuses ({ withFlags [.d] (at0600 [0x69#8, 0x00#8]) with params := { platform with decimalMode := .refuse } }) .decimalRefused = true := by decide

/-- Both R89 and R122 refuse; which is reported is the choice of log 9. -/
theorem test_pointer_is_refused_before_decimal :
    refuses ({ { withFlags [.d] (at0600 [0x71#8, 0xFF#8]) with a := 0x0A#8 } with params := platform }) .zeroPagePointerCross = true := by decide

/-- `page_wrap` (R181). -/
theorem test_jump_pointer_wraps_in_its_page :
    leads ({ poke (poke (poke (at0600 [0x6C#8, 0xFF#8, 0x03#8]) 0x03FF#16 [0x78#8]) 0x0300#16 [0x56#8]) 0x0400#16 [0x99#8] with params := { resetParams with jmpIndCross := .pageWrap } })
      (fun t => t.pc) 0x5678#16 = true := by decide

/-- The frame of R230: the pc of the unexecuted instruction, and P with bit 4 clear. -/
theorem test_irq_entry :
    leads ({ poke (at0600 [0xEA#8]) 0xFFFE#16 [0x00#8, 0x09#8] with inputs := [⟨false, false, true⟩] })
      (fun t => (t.mem.read 0x1FF, t.mem.read 0x1FE, t.mem.read 0x1FD, t.sp, t.p.i, t.pc)) (0x06#8, 0x00#8, 0x20#8, 0xFC#8, true, 0x0900#16) = true := by decide

theorem test_irq_masked :
    leads ({ withFlags [.i] (at0600 [0xEA#8]) with inputs := [⟨false, false, true⟩] })
      (fun t => t.pc) 0x0601#16 = true := by decide

theorem test_nmi_over_irq :
    leads ({ withFlags [.i] (poke (poke (at0600 [0xEA#8]) 0xFFFA#16 [0x00#8, 0x07#8]) 0xFFFE#16 [0x00#8, 0x09#8]) with inputs := [⟨false, true, true⟩] })
      (fun t => (t.pc, t.nmiPending)) (0x0700#16, false) = true := by decide

theorem test_res_over_nmi :
    leads ({ poke (at0600 [0xEA#8]) 0xFFFC#16 [0x00#8, 0x08#8] with inputs := [⟨true, true, true⟩] })
      (fun t => (t.pc, t.p.i, t.nmiPending)) (0x0800#16, true, false) = true := by decide

/-- The table's word of `LDA nn`, whose operand bytes the table gives no bits: they are zero. -/
theorem test_decodeTableWord : decodeTableWord 8 0xAD = some (.ldaAbs 0x0000#16) := by decide
theorem test_withFetchWord_runs_the_word :
    leads (State.reset.withFetchWord 8 0xE8) (fun t => (t.x, t.pc)) (0x01#8, 0x0001#16) = true := by decide

/-! ### Witnesses: the hypotheses of the statements hold together -/

/-- A state under other parameters. -/
def under (p : Params) (s : State) : State := { s with params := p }

/-- The parameters of reset, but with page 1 aliased to page 0. -/
def aliased : Params := { resetParams with stackInPageZero := true }

/-- Parameters that refuse least, on a platform that drives the S.O. pin. -/
def running : Params :=
  { resetParams with zpPtrCross := .wrap, jmpIndCross := .pageWrap, soPinUsed := true }

/-- On the platform with A, X, Y, D such that every refusal is one instruction away. -/
def onPlatform : State := { under platform (withFlags [.d] (at0600 [])) with a := 0x0A#8, x := 0x01#8, y := 0x01#8 }

/-- The premises of PullReturnsWhatWasPushed, PushOfAWordStoresHighByteFirst, RtsReturnsBehindItsJsr,
PlpRestoresWhatPhpPushed, RtiResumesTheInterruptedProgram, and of the stack clauses of the BRK, IRQ and NMI statements. -/
theorem test_witness_Inv_and_stackIsRam : (at0600 []).Inv ∧ stackIsRam (at0600 []).params :=
  ⟨by unfold State.Inv; decide, fun _ => rfl⟩

theorem test_witness_Inv_and_stackIsRam_on_the_platform :
    (onPlatform.writeByte 0xD000#16 0x01#8).Inv ∧ stackIsRam (onPlatform.writeByte 0xD000#16 0x01#8).params :=
  ⟨by unfold State.Inv; decide, fun k => by revert k; decide⟩

theorem test_witness_DecodedBytesAreTheEncoding :
    decode [0xA9#8, 0x01#8, 0xEA#8] = .ok (.ldaImm 0x01#8, [0xEA#8]) := rfl

theorem test_witness_OpcodeFixesOperationAndLength : (Instr.jmpAbs 0x0000#16).opcode = (Instr.jmpAbs 0xFFFF#16).opcode := rfl

theorem test_witness_UndefinedOpcodesAreRefused_first : (at0600 [0x02#8]).event = .instruction ∧
    ((at0600 [0x02#8]).atBoundary.readByte .opcode (at0600 [0x02#8]).pc).toNat ∈ undefinedOpcodes := by decide

theorem test_witness_UndefinedOpcodesAreRefused_last : (at0600 [0xFF#8]).event = .instruction ∧
    ((at0600 [0xFF#8]).atBoundary.readByte .opcode (at0600 [0xFF#8]).pc).toNat ∈ undefinedOpcodes := by decide

theorem test_witness_UndefinedOpcodesAreRefused_ror : (under platform (at0600 [0x7E#8])).event = .instruction ∧
    (under platform (at0600 [0x7E#8])).params.hasRor = false ∧
    ((under platform (at0600 [0x7E#8])).atBoundary.readByte .opcode 0x0600#16).toNat ∈ rorOpcodes := by decide

theorem test_witness_MemoryReadsBackTheLastWrite : Memory.wf [(0x0000, 0x01#8), (0xFFFF, 0x02#8)] = true := by decide

theorem test_witness_WritesActByTheKindOfTheLocation : onPlatform.Inv ∧ kindAt platform 0x0000#16 = .ram ∧ kindAt platform 0xBFFF#16 = .ram ∧
    kindAt platform 0xC000#16 = .unpopulated ∧ kindAt platform 0xCFFF#16 = .unpopulated ∧
    kindAt platform 0xD000#16 = .io ∧ kindAt platform 0xDFFF#16 = .io ∧ kindAt platform 0xE000#16 = .ram ∧
    kindAt platform 0xF000#16 = .rom ∧ kindAt platform 0xFFFF#16 = .rom ∧
    cellOf platform 0x01FF#16 ≠ cellOf platform 0x0200#16 := by
  unfold State.Inv
  decide

theorem test_witness_StackInPageZeroAliasesTheTwoPages : (under aliased (at0600 [])).Inv ∧ aliased.stackInPageZero = true ∧
    kindAt aliased (zeroPage 0x00#8) = .ram ∧ kindAt aliased (zeroPage 0xFF#8) = .ram ∧
    cellOf aliased 0x01FF#16 = cellOf aliased 0x00FF#16 ∧ cellOf aliased 0x0200#16 ≠ cellOf aliased 0x0000#16 ∧
    resetParams.stackInPageZero = false ∧ cellOf resetParams 0x0100#16 ≠ cellOf resetParams 0x0000#16 := by
  unfold State.Inv
  decide

theorem test_witness_FetchSeesTheLastStore_opcode : (at0600 []).Inv ∧ kindAt (at0600 []).params 0x0600#16 = .ram ∧
    opcodeShape 0xEA#8 = some (.one .nop) ∧ opcodeShape 0xA9#8 = some (.two .ldaImm) ∧
    opcodeShape 0x4C#8 = some (.three .jmpAbs) := ⟨by unfold State.Inv; decide, rfl, rfl, rfl, rfl⟩

theorem test_witness_FetchSeesTheLastStore_operand :
    kindAt (at0600 []).params (0x0600#16 + 1) = .ram ∧ kindAt (at0600 []).params (0x0600#16 + 2) = .ram ∧
    (at0600 [0xA9#8]).Inv ∧ opcodeShape ((at0600 [0xA9#8]).readByte .opcode (at0600 [0xA9#8]).pc) = some (.two .ldaImm) ∧
    (at0600 [0x4C#8]).Inv ∧ opcodeShape ((at0600 [0x4C#8]).readByte .opcode (at0600 [0x4C#8]).pc) = some (.three .jmpAbs) :=
  ⟨rfl, rfl, by unfold State.Inv; decide, rfl, by unfold State.Inv; decide, rfl⟩

theorem test_witness_OperandAndEffectiveAddress_memory :
    effectiveAddress (.zp 0x10#8) (at0600 []) = .ok 0x0010#16 ∧
    effectiveAddress (.inx 0xFE#8) onPlatform = .error .zeroPagePointerCross := ⟨rfl, rfl⟩

theorem test_witness_OperandAndEffectiveAddress_pointer :
    (0xFD + onPlatform.x.toNat) % 256 ≠ 255 ∧ (0xFE + onPlatform.x.toNat) % 256 = 255 ∧
    (0xFF + onPlatform.x.toNat) % 256 ≠ 255 ∧ onPlatform.params.zpPtrCross = .refuse ∧
    (0xFF + (under running (at0600 [])).x.toNat) % 256 = 255 ∧ (under running (at0600 [])).params.zpPtrCross = .wrap ∧
    (0xFE#8 : Byte) ≠ 0xFF#8 ∧ (0x00#8 : Byte) ≠ 0xFF#8 := by decide

theorem test_witness_BinaryAdcResult : (Instr.adcImm 0x80#8).mnemonic = .adc ∧
    operandByte (.imm 0x80#8) (at0600 []) = .ok 0x80#8 ∧ (at0600 []).p.d = false := ⟨rfl, rfl, rfl⟩

theorem test_witness_BinarySbcResult : (Instr.sbcZp 0x10#8).mnemonic = .sbc ∧
    operandByte (.mem (.zp 0x10#8)) (poke (at0600 []) 0x0010#16 [0xFF#8]) = .ok 0xFF#8 ∧
    (poke (at0600 []) 0x0010#16 [0xFF#8]).p.d = false := ⟨rfl, rfl, rfl⟩

theorem test_witness_DecimalResultOfBcdOperands :
    (Instr.adcImm 0x99#8).mnemonic = .adc ∧ (Instr.sbcImm 0x99#8).mnemonic = .sbc ∧
    operandByte (.imm 0x99#8) (withFlags [.d] (at0600 [])) = .ok 0x99#8 ∧ (withFlags [.d] (at0600 [])).p.d = true ∧
    (withFlags [.d] (at0600 [])).params.decimalMode ≠ .refuse ∧ isBcd (withFlags [.d] (at0600 [])).a = true ∧
    isBcd 0x99#8 = true := by
  refine ⟨rfl, rfl, rfl, rfl, ?_, ?_, ?_⟩ <;> decide

theorem test_witness_DecimalArithmeticOutsideBcd_refuse :
    operandByte (.imm 0x00#8) (under { platform with decimalMode := .refuse } onPlatform) = .ok 0x00#8 ∧
    (under { platform with decimalMode := .refuse } onPlatform).p.d = true ∧
    (under { platform with decimalMode := .refuse } onPlatform).params.decimalMode = .refuse := ⟨rfl, rfl, rfl⟩

theorem test_witness_DecimalArithmeticOutsideBcd_bcdValidOnly : operandByte (.imm 0x00#8) onPlatform = .ok 0x00#8 ∧
    onPlatform.p.d = true ∧ onPlatform.params.decimalMode = .bcdValidOnly ∧
    (isBcd onPlatform.a && isBcd 0x00#8) = false := ⟨rfl, rfl, rfl, by decide⟩

theorem test_witness_CompareResult : (Instr.cmpImm 0x00#8).mnemonic = .cmp ∧ (Instr.cpxImm 0x00#8).mnemonic = .cpx ∧
    (Instr.cpyImm 0x00#8).mnemonic = .cpy ∧ operandByte (.imm 0x00#8) (at0600 []) = .ok 0x00#8 := ⟨rfl, rfl, rfl, rfl⟩

theorem test_witness_LogicResult : (Instr.andImm 0xFF#8).mnemonic = .and ∧ (Instr.eorImm 0xFF#8).mnemonic = .eor ∧
    (Instr.oraImm 0xFF#8).mnemonic = .ora ∧ operandByte (.imm 0xFF#8) (at0600 []) = .ok 0xFF#8 := ⟨rfl, rfl, rfl, rfl⟩

theorem test_witness_BitResult : (Instr.bitZp 0x00#8).mnemonic = .bit ∧
    operandByte (.mem (.zp 0x00#8)) (poke (at0600 []) 0x0000#16 [0xC0#8]) = .ok 0xC0#8 := ⟨rfl, rfl⟩

theorem test_witness_ShiftAndRotateResult : (Instr.aslAcc).mnemonic = .asl ∧ (Instr.lsrZp 0x10#8).mnemonic = .lsr ∧
    (Instr.rolAcc).mnemonic = .rol ∧ (Instr.rorZp 0x10#8).mnemonic = .ror ∧
    Instr.wellFormed platform .aslAcc = true ∧ Instr.wellFormed (at0600 []).params (.rorZp 0x10#8) = true ∧
    effectiveAddress (.zp 0x10#8) (at0600 []) = .ok 0x0010#16 := ⟨rfl, rfl, rfl, rfl, rfl, rfl, rfl⟩

theorem test_witness_MemoryIncrementAndDecrementResult : (Instr.incAbx 0xFFFF#16).mnemonic = .inc ∧
    (Instr.decAbx 0xFFFF#16).mnemonic = .dec ∧
    effectiveAddress (.abx 0xFFFF#16) onPlatform = .ok 0x0000#16 := ⟨rfl, rfl, rfl⟩

theorem test_witness_JumpsSetThePc : (0x03FE#16 : Word).toNat % 256 ≠ 255 ∧ (0x0300#16 : Word).toNat % 256 ≠ 255 ∧
    (0x03FF#16 : Word).toNat % 256 = 255 ∧ (0xFFFF#16 : Word).toNat % 256 = 255 ∧
    onPlatform.params.jmpIndCross = .refuse ∧
    (under { platform with jmpIndCross := .linear } (at0600 [])).params.jmpIndCross = .linear ∧
    (under running (at0600 [])).params.jmpIndCross = .pageWrap := by decide

theorem test_witness_LoadResult : (Instr.ldaImm 0x80#8).mnemonic = .lda ∧ (Instr.ldxImm 0x80#8).mnemonic = .ldx ∧
    (Instr.ldyImm 0x80#8).mnemonic = .ldy ∧ operandByte (.imm 0x80#8) (at0600 []) = .ok 0x80#8 := ⟨rfl, rfl, rfl, rfl⟩

theorem test_witness_StoreResult : (Instr.staIny 0xFE#8).mnemonic = .sta ∧ (Instr.stxZpy 0xFE#8).mnemonic = .stx ∧
    (Instr.styZpx 0xFE#8).mnemonic = .sty ∧ effectiveAddress (.zpx 0xFE#8) onPlatform = .ok 0x00FF#16 ∧
    effectiveAddress (.zpy 0xFF#8) onPlatform = .ok 0x0000#16 ∧
    effectiveAddress (.iny 0xFE#8) onPlatform = .ok 0x0001#16 := ⟨rfl, rfl, rfl, rfl, rfl, rfl⟩

/-- Both frames of the storing forms, the use table and the flag table take an instruction that goes on. -/
theorem test_witness_StoresChangeOnlyTheEffectiveAddress :
    (Instr.staAbs 0x0300#16).mnemonic ∈ [Mnemonic.sta, .stx, .sty, .inc, .dec, .asl, .lsr, .rol, .ror] ∧
    (Instr.staAbs 0x0300#16).form = .data (.mem (.abs 0x0300#16)) ∧
    effectiveAddress (.abs 0x0300#16) (at0600 []) = .ok 0x0300#16 ∧
    (∃ t, exec (.staAbs 0x0300#16) (at0600 []) = .next t) ∧
    cellOf (at0600 []).params 0x0301#16 ≠ cellOf (at0600 []).params 0x0300#16 :=
  ⟨by decide, rfl, rfl, ⟨_, rfl⟩, by decide⟩

theorem test_witness_FlagsChangeOnlyAsTheFlagTableSays : (∃ t, exec (.cmpImm 0x01#8) (at0600 []) = .next t) ∧
    FlagName.v ∉ flagsWritten (Instr.cmpImm 0x01#8).mnemonic := ⟨⟨_, rfl⟩, by decide⟩

theorem test_witness_InstructionsChangeOnlyWhatTheUseTableSays : (∃ t, exec .pla (at0600 []) = .next t) ∧
    Resource.x ∉ resourcesWritten .pla ∧ Resource.memory ∉ resourcesWritten .pla := ⟨⟨_, rfl⟩, by decide, by decide⟩

theorem test_witness_PushesChangeOnlyTheirStackBytes : (∃ t, exec .pha (at0600 []) = .next t) ∧
    (∃ t, exec .php (at0600 []) = .next t) ∧ (∃ t, exec (.jsr 0x0800#16) (at0600 []) = .next t) ∧
    (∃ t, exec .brk (at0600 []) = .next t) ∧ (Instr.jsr 0x0800#16).mnemonic = .jsr ∧
    (∀ k, k < 3 → cellOf (at0600 []).params 0x01FC#16
      ≠ cellOf (at0600 []).params (stackAddress ((at0600 []).sp - BitVec.ofNat 8 k))) :=
  ⟨⟨_, rfl⟩, ⟨_, rfl⟩, ⟨_, rfl⟩, ⟨_, rfl⟩, rfl, by decide⟩

theorem test_witness_IrqEntryTakesTheException :
    let s : State := under running { at0600 [] with inputs := [⟨false, false, true⟩] }
    s.params.soPinUsed = true ∧ s.lines.res = false ∧ s.nmiPending = false ∧ s.lines.nmiFell = false ∧
      s.lines.irqLow = true ∧ s.p.i = false := by decide

theorem test_witness_NmiEntryTakesTheException_edge :
    let s : State := under running { at0600 [] with inputs := [⟨false, true, true⟩] }
    s.params.soPinUsed = true ∧ s.lines.res = false ∧ s.lines.nmiFell = true := by decide

theorem test_witness_NmiEntryTakesTheException_latch :
    let s : State := { at0600 [] with nmiPending := true }
    s.params.soPinUsed = false ∧ s.lines.res = false ∧ s.nmiPending = true := by decide

theorem test_witness_ResetSequenceGoesThroughTheResVector :
    ({ at0600 [] with inputs := [⟨true, true, true⟩] } : State).lines.res = true := by decide

theorem test_witness_NoStepLeavesTheNmiLatchSet :
    ∃ t, step ({ at0600 [0xEA#8] with nmiPending := true } : State) = .next t := ⟨_, rfl⟩

/-- The other clause: the RES drops the NMI that its boundary sees. -/
theorem test_witness_NoStepLeavesTheNmiLatchSet_res :
    let s : State := { at0600 [0xEA#8] with inputs := [⟨true, true, false⟩] }
    (∃ t, step s = .next t) ∧ s.lines.nmiFell = true ∧ s.lines.res = true := ⟨⟨_, rfl⟩, rfl, rfl⟩

theorem test_witness_DecimalFlagIsSticky : leads (at0600 [0xF8#8]) (fun t => t.p.d) true = true ∧
    (at0600 [0xF8#8]).lines.res = false ∧ (at0600 [0xF8#8]).p.d = false := by decide

/-- An NMI entry ahead of a SED leaves D as it is: the case that the statement's `event` shuts out. -/
theorem test_nmi_entry_ahead_of_sed_leaves_d :
    leads ({ at0600 [0xF8#8] with nmiPending := true }) (fun t => t.p.d) false = true := by decide

theorem test_witness_StepRunsTheDecodedInstruction :
    let s : State := { withFlags [.i] (at0600 [0xA9#8, 0x80#8]) with inputs := [⟨false, false, true⟩] }
    s.lines.res = false ∧ s.nmiPending = false ∧ s.lines.nmiFell = false ∧ (s.lines.irqLow = true → s.p.i = true) ∧
    decode [s.atBoundary.readByte .opcode s.pc, s.atBoundary.readByte .operandLow (s.pc + 1),
      s.atBoundary.readByte .operandHigh (s.pc + 2)] = .ok (.ldaImm 0x80#8, [0x00#8]) ∧
    Instr.wellFormed s.params (.ldaImm 0x80#8) = true := ⟨rfl, rfl, rfl, by decide, rfl, rfl⟩

theorem test_witness_BoundaryChangesNoRegister : (at0600 []).params.soPinUsed = false := rfl

theorem test_witness_StepKeepsTheInvariant : (at0600 [0x48#8]).Inv ∧ ∃ t, step (at0600 [0x48#8]) = .next t :=
  ⟨by unfold State.Inv; decide, _, rfl⟩

theorem test_witness_StepKeepsParametersAndRom :
    (∃ t, step (under platform (at0600 [0x8D#8, 0x00#8, 0xF0#8])) = .next t) ∧
    kindAt platform 0xF000#16 = .rom ∧ kindAt platform 0xFFFF#16 = .rom := ⟨⟨_, rfl⟩, by decide, by decide⟩

theorem test_witness_OnlyNonBcdStops_undefined : refusesLeast (under running (at0600 [0x02#8])).params ∧
    step (under running (at0600 [0x02#8])) = .refused (.undefinedOpcode 0x02#8) := ⟨by unfold refusesLeast; decide, rfl⟩

/-- The operand 0x0A is not BCD in decimal mode; in binary mode it is no such case. -/
theorem test_witness_OnlyNonBcdStops_decimal :
    let s : State := { under running (withFlags [.d] (at0600 [0x69#8, 0x0A#8])) with inputs := [] }
    refusesLeast s.params ∧ takesNonBcd (.adcImm 0x0A#8) s ∧ ¬ takesNonBcd (.adcImm 0x0A#8) { s with p := flags [] } ∧
    step s = .refused .decimalInvalidBcd :=
  ⟨by unfold refusesLeast; decide, ⟨.inl rfl, rfl, .imm 0x0A#8, 0x0A#8, rfl, rfl, by decide⟩,
    fun h => Bool.noConfusion h.2.1, rfl⟩

theorem test_witness_InstructionsStopOnlyForTheSpecsReasons :
    exec .rorAcc onPlatform = .refused (.undefinedOpcode 0x6A#8) ∧
    exec (.ldaInx 0xFE#8) onPlatform = .refused .zeroPagePointerCross ∧
    exec (.staIny 0xFF#8) onPlatform = .refused .zeroPagePointerCross ∧
    exec (.jmpInd 0x03FF#16) onPlatform = .refused .jmpIndirectCross ∧
    exec (.adcImm 0x00#8) onPlatform = .refused .decimalInvalidBcd ∧
    exec (.sbcImm 0x00#8) (under { platform with decimalMode := .refuse } onPlatform) = .refused .decimalRefused :=
  ⟨rfl, rfl, rfl, rfl, rfl, rfl⟩

/-- The clauses that say where an instruction stops; the last is the ADC that R122 refuses as well (log 9). -/
theorem test_witness_InstructionsStopWhereTheAddressDoes :
    (Instr.staIny 0xFF#8).form = .data (.mem (.iny 0xFF#8)) ∧ (Instr.ldaInx 0xFE#8).form = .data (.mem (.inx 0xFE#8)) ∧
    onPlatform.params.zpPtrCross = .refuse ∧ 0xFE#8 + onPlatform.x = 0xFF#8 ∧
    effectiveAddress (.iny 0xFF#8) onPlatform = .error .zeroPagePointerCross ∧
    onPlatform.params.hasRor = false ∧ (Instr.rorAbx 0x0300#16).mnemonic = .ror ∧
    exec (.adcIny 0xFF#8) onPlatform = .refused .zeroPagePointerCross :=
  ⟨rfl, rfl, rfl, rfl, rfl, rfl, rfl, rfl⟩

theorem test_witness_BranchCyclesByPage : (Instr.bcc 0x7F#8).form = .rel 0x7F#8 ∧
    branchTaken (Instr.bcc 0x7F#8).mnemonic (at0600 []).p = true ∧
    branchTaken (Instr.bcc 0x7F#8).mnemonic (withFlags [.c] (at0600 [])).p = false := ⟨rfl, rfl, rfl⟩

/-- On both sides of the page: Y = 1 crosses from a low byte of 0xFF only. -/
theorem test_witness_CycleCountsOfEveryClassAndForm_indexed :
    (Instr.ldaAbx 0x02FF#16).form = .data (.mem (.abx 0x02FF#16)) ∧
    (Instr.ldxAby 0x02FE#16).form = .data (.mem (.aby 0x02FE#16)) ∧
    (Instr.ldaIny 0xFE#8).form = .data (.mem (.iny 0xFE#8)) ∧ zeroPagePointer 0xFE#8 onPlatform = .ok 0x0000#16 ∧
    (Instr.staAbx 0x02FF#16).form = .data (.mem (.abx 0x02FF#16)) ∧
    (Instr.staAby 0x02FF#16).form = .data (.mem (.aby 0x02FF#16)) ∧
    (Instr.staIny 0x20#8).form = .data (.mem (.iny 0x20#8)) ∧
    (Instr.incAbx 0x02FF#16).form = .data (.mem (.abx 0x02FF#16)) := ⟨rfl, rfl, rfl, rfl, rfl, rfl, rfl, rfl⟩

theorem test_witness_CycleCountsOfEveryClassAndForm_others :
    (Instr.ldaImm 0x01#8).form = .data (.imm 0x01#8) ∧ (Instr.ldaZp 0x01#8).form = .data (.mem (.zp 0x01#8)) ∧
    (Instr.ldxZpy 0x01#8).form = .data (.mem (.zpy 0x01#8)) ∧ (Instr.ldyAbs 0x0201#16).form = .data (.mem (.abs 0x0201#16)) ∧
    (Instr.ldaInx 0x01#8).form = .data (.mem (.inx 0x01#8)) ∧ (Instr.styZpx 0x01#8).form = .data (.mem (.zpx 0x01#8)) ∧
    (Instr.stxZp 0x01#8).form = .data (.mem (.zp 0x01#8)) ∧ (Instr.staAbs 0x0201#16).form = .data (.mem (.abs 0x0201#16)) ∧
    (Instr.staInx 0x01#8).form = .data (.mem (.inx 0x01#8)) ∧ Instr.lsrAcc.form = .acc ∧
    (Instr.decZp 0x01#8).form = .data (.mem (.zp 0x01#8)) ∧ (Instr.rolZpx 0x01#8).form = .data (.mem (.zpx 0x01#8)) ∧
    (Instr.aslAbs 0x0201#16).form = .data (.mem (.abs 0x0201#16)) ∧ Instr.nop.mnemonic = .nop ∧
    ({ at0600 [] with nmiPending := true } : State).event = .nmi :=
  ⟨rfl, rfl, rfl, rfl, rfl, rfl, rfl, rfl, rfl, rfl, rfl, rfl, rfl, rfl, rfl⟩

end Sys2Proof.Tests
end

section
/-! The scope's statements (spec 00_scope.md): what no step changes, and where an instruction or a step stops. First,
the parameters and the bytes of ROM. -/

namespace Sys2Proof.Machine

/-- From `s` to `t` the parameters and every byte that ROM gives stay as they were (R7, R51, R74). -/
def KeepsParamsAndRom (s t : State) : Prop :=
  t.params = s.params ∧ ∀ use addr, kindAt s.params addr = .rom → t.readByte use addr = s.readByte use addr

/-- ROM gives the contents of its cell, in any role and at any turn (R51). -/
theorem readByte_rom {s : State} {addr : Word} (use : Access) (h : kindAt s.params addr = .rom) :
    s.readByte use addr = s.mem.read (cellOf s.params addr) := by
  simp [State.readByte, h]

theorem KeepsParamsAndRom.of_params_mem {s t : State} (hp : t.params = s.params) (hm : t.mem = s.mem) :
    KeepsParamsAndRom s t := by
  refine ⟨hp, fun use addr h => ?_⟩
  rw [readByte_rom use h, readByte_rom use (hp ▸ h), hp, hm]

theorem KeepsParamsAndRom.trans {s t u : State} (hst : KeepsParamsAndRom s t) (htu : KeepsParamsAndRom t u) :
    KeepsParamsAndRom s u := by
  obtain ⟨hp, hr⟩ := hst
  obtain ⟨hp', hr'⟩ := htu
  exact ⟨hp'.trans hp, fun use addr h => (hr' use addr (hp ▸ h)).trans (hr use addr h)⟩

/-- Only the parameters and the memory of the later state matter. -/
theorem KeepsParamsAndRom.congr_right {s t u : State} (h : KeepsParamsAndRom s t) (hp : u.params = t.params)
    (hm : u.mem = t.mem) : KeepsParamsAndRom s u :=
  h.trans (.of_params_mem hp hm)

/-- A write reaches ROM in no way: a cell of ROM is not the cell of RAM that the write changes (R51). -/
theorem writeByte_keepsParamsAndRom (s : State) (addr : Word) (v : Byte) :
    KeepsParamsAndRom s (s.writeByte addr v) := by
  rcases writeByte_cases s addr v with ⟨hram, -⟩ | ⟨-, e⟩ | ⟨-, e⟩
  · refine ⟨by simp, fun use other hrom => readByte_writeByte_other s addr other v use fun hcell => ?_⟩
    have hkind : kindAt s.params other = kindAt s.params addr := congrArg (kindIn s.params.memMap) hcell
    simp [hrom, hram] at hkind
  · rw [e]
    exact .of_params_mem rfl rfl
  · rw [e]
    exact .of_params_mem rfl rfl

theorem push8_keepsParamsAndRom (s : State) (v : Byte) : KeepsParamsAndRom s (s.push8 v) :=
  (writeByte_keepsParamsAndRom s (stackAddress s.sp) v).congr_right (by simp) (by simp)

theorem push16_keepsParamsAndRom (s : State) (w : Word) : KeepsParamsAndRom s (s.push16 w) :=
  (push8_keepsParamsAndRom s (highByte w)).trans (push8_keepsParamsAndRom _ (lowByte w))

theorem takeException_keepsParamsAndRom (s : State) (b : Bool) (ret vector : Word) :
    KeepsParamsAndRom s (s.takeException b ret vector) :=
  ((push16_keepsParamsAndRom s ret).trans (push8_keepsParamsAndRom _ (s.p.pByte b))).congr_right (by simp) (by simp)

theorem Computes.params_mem {s u : State} {d : Byte} {m : Mnemonic} (h : Computes s d m u) :
    u.params = s.params ∧ u.mem = s.mem := by
  cases h <;> exact ⟨rfl, rfl⟩

theorem Implies.params_mem {s u : State} {m : Mnemonic} (h : Implies s m u) :
    u.params = s.params ∧ u.mem = s.mem := by
  cases h <;> exact ⟨rfl, rfl⟩

/-- Every instruction keeps the parameters and ROM: what it writes to memory, it writes by `writeByte` or a push. -/
theorem Goes.keepsParamsAndRom {s t : State} {m : Mnemonic} {fm : Form} (h : Goes s m fm t) :
    KeepsParamsAndRom s t := by
  cases h with
  | compute _ _ _ _ _ hu =>
    obtain ⟨hp, hm⟩ := hu.params_mem
    exact .of_params_mem hp hm
  | implied _ _ hu =>
    obtain ⟨hp, hm⟩ := hu.params_mem
    exact .of_params_mem hp hm
  | store | modify => exact (writeByte_keepsParamsAndRom s _ _).congr_right rfl rfl
  | push => exact (push8_keepsParamsAndRom s _).congr_right rfl rfl
  | jsr => exact (push16_keepsParamsAndRom s _).congr_right rfl rfl
  | brk => exact takeException_keepsParamsAndRom s _ _ _
  | modifyA | branch | jump | jumpIndirect | rts | rti => exact .of_params_mem rfl rfl

theorem atBoundary_keepsParamsAndRom (s : State) : KeepsParamsAndRom s s.atBoundary := .of_params_mem rfl rfl

theorem step_keepsParamsAndRom {s t : State} (h : step s = .next t) : KeepsParamsAndRom s t := by
  refine (atBoundary_keepsParamsAndRom s).trans ?_
  rcases step_next_cases h with ⟨-, rfl⟩ | ⟨-, rfl⟩ | ⟨-, rfl⟩ | ⟨-, i, u, -, hu, rfl⟩
  · exact .of_params_mem rfl rfl
  · exact (takeException_keepsParamsAndRom s.atBoundary false s.pc nmiVector).congr_right rfl rfl
  · exact (takeException_keepsParamsAndRom s.atBoundary false s.pc irqVector).congr_right rfl rfl
  · exact (exec_next_cases hu).keepsParamsAndRom.congr_right rfl rfl

/-- Settles O55: the boundary, each entry and each instruction keep the parameters and ROM. -/
theorem stepKeepsParametersAndRom : Obligations.StepKeepsParametersAndRom :=
  fun _ _ h => step_keepsParamsAndRom h

end Sys2Proof.Machine
end

section
/-! Where an operand, a target or decimal arithmetic is refused, and that the shared ways of using them refuse just
there. -/

namespace Sys2Proof.Machine

/-- A pointer at the end of page 0 is refused where the parameter says so (R88, R89). -/
theorem zeroPagePointer_at_end {s : State} (h : s.params.zpPtrCross = .refuse) :
    zeroPagePointer 0xFF#8 s = .error .zeroPagePointerCross := by
  simp [zeroPagePointer, h]

/-- Only the two pointer forms refuse an address, with the pointer at 0xFF and the parameter at refuse (R88, R89). -/
theorem effectiveAddress_error_iff {m : MemForm} {s : State} {r : Refusal} :
    effectiveAddress m s = .error r ↔ s.params.zpPtrCross = .refuse ∧ r = .zeroPagePointerCross ∧
      ∃ n, m = .inx n ∧ n + s.x = 0xFF#8 ∨ m = .iny n ∧ n = 0xFF#8 := by
  constructor
  · intro h
    obtain ⟨hz, hr⟩ := effectiveAddress_error h
    refine ⟨hz, hr, ?_⟩
    cases m with
    | inx n => exact ⟨n, .inl ⟨rfl, (zeroPagePointer_error h).1⟩⟩
    | iny n =>
      simp only [effectiveAddress] at h
      split at h
      · cases h
      · next hp => exact ⟨n, .inr ⟨rfl, (zeroPagePointer_error hp).1⟩⟩
    | zp | zpx | zpy | abs | abx | aby => cases h
  · rintro ⟨hz, rfl, n, ⟨rfl, hn⟩ | ⟨rfl, rfl⟩⟩
    · simp only [effectiveAddress, hn, zeroPagePointer_at_end hz]
    · simp only [effectiveAddress, zeroPagePointer_at_end hz]

/-- An operand is refused by its address alone. -/
theorem operandByte_error_iff {src : Source} {s : State} {r : Refusal} :
    operandByte src s = .error r ↔ ∃ m, src = .mem m ∧ effectiveAddress m s = .error r := by
  cases src with
  | imm n => simp [operandByte]
  | mem m => cases h : effectiveAddress m s <;> simp [operandByte, h]

/-- The target of JMP (nn) is refused at the end of a page alone (R181). -/
theorem lowByte_of_indirectTarget_error {nn : Word} {s : State} {r : Refusal} (h : indirectTarget nn s = .error r) :
    lowByte nn = 0xFF#8 := by
  by_contra hne
  simp [indirectTarget, hne] at h

/-- R122 refuses decimal arithmetic of the operand `d` in `s`, for the reason `r`. -/
def DecimalStops (s : State) (d : Byte) (r : Refusal) : Prop :=
  s.p.d = true ∧
    ((s.params.decimalMode = .refuse ∧ r = .decimalRefused) ∨
     (s.params.decimalMode = .bcdValidOnly ∧ (isBcd s.a && isBcd d) = false ∧ r = .decimalInvalidBcd))

theorem decimalOutcome_error_iff {d value : Byte} {carry : Bool} {s : State} {r : Refusal} (hd : s.p.d = true) :
    decimalOutcome d value carry s = .error r ↔ DecimalStops s d r := by
  constructor
  · exact fun h => ⟨hd, decimalOutcome_error h⟩
  · rintro ⟨-, ⟨hm, rfl⟩ | ⟨hm, hb, rfl⟩⟩ <;> simp [decimalOutcome, *]

theorem addOperand_error_iff {d : Byte} {s : State} {r : Refusal} :
    addOperand d s = .error r ↔ DecimalStops s d r := by
  unfold addOperand
  split
  · next hd => exact decimalOutcome_error_iff hd
  · next hd => simp [DecimalStops, hd]

theorem subOperand_error_iff {d : Byte} {s : State} {r : Refusal} :
    subOperand d s = .error r ↔ DecimalStops s d r := by
  unfold subOperand
  split
  · next hd => exact decimalOutcome_error_iff hd
  · next hd => simp [DecimalStops, hd]

theorem withOperand_refused_iff {src : Source} {f : Byte → State → State} {s : State} {r : Refusal} :
    withOperand src f s = .refused r ↔ operandByte src s = .error r := by
  cases h : operandByte src s <;> simp [withOperand, h]

theorem storeAt_refused_iff {m : MemForm} {v : Byte} {s : State} {r : Refusal} :
    storeAt m v s = .refused r ↔ effectiveAddress m s = .error r := by
  cases h : effectiveAddress m s <;> simp [storeAt, h]

theorem modifyAt_refused_iff {m : MemForm} {f : Byte → Flags → Byte × Flags} {s : State} {r : Refusal} :
    modifyAt m f s = .refused r ↔ effectiveAddress m s = .error r := by
  cases h : effectiveAddress m s <;> simp [modifyAt, h]

/-- The operand is refused first, then the computation (log 9). -/
theorem arithmeticOn_refused_iff {src : Source} {f : Byte → State → Except Refusal State} {s : State} {r : Refusal} :
    arithmeticOn src f s = .refused r ↔
      operandByte src s = .error r ∨ ∃ d, operandByte src s = .ok d ∧ f d s = .error r := by
  cases h : operandByte src s with
  | error r' => simp [arithmeticOn, h]
  | ok d => cases hf : f d s <;> simp [arithmeticOn, h, hf]

theorem execJmpInd_refused_iff {nn : Word} {s : State} {r : Refusal} :
    execJmpInd nn s = .refused r ↔ indirectTarget nn s = .error r := by
  cases h : indirectTarget nn s <;> simp [execJmpInd, h]

theorem ifPresent_absent {present : Bool} {op : Byte} {o : Host.Outcome State Fault Refusal} (h : present = false) :
    ifPresent present op o = .refused (.undefinedOpcode op) := by
  simp [ifPresent, h]

theorem ifPresent_refused {present : Bool} {op : Byte} {o : Host.Outcome State Fault Refusal} {r : Refusal}
    (h : ifPresent present op o = .refused r) :
    (present = false ∧ r = .undefinedOpcode op) ∨ o = .refused r := by
  cases present with
  | true => exact .inr h
  | false => exact .inl ⟨rfl, (Host.Outcome.refused.inj h).symm⟩

end Sys2Proof.Machine
end

section
/-! All that can stop an instruction, and where each of it does. -/

namespace Sys2Proof.Machine

/-- The mnemonics that only read an operand, whatever D is: nothing but the operand's address can stop them. -/
def readers : List Mnemonic := [.cmp, .cpx, .cpy, .and, .eor, .ora, .bit, .lda, .ldx, .ldy]

theorem meaningOf_reader_refused_iff {m : Mnemonic} (hm : m ∈ readers) {src : Source} {op : Byte} {s : State}
    {r : Refusal} : meaningOf m (.data src) op s = .refused r ↔ operandByte src s = .error r := by
  simp only [readers, List.mem_cons, List.not_mem_nil, or_false] at hm
  rcases hm with rfl | rfl | rfl | rfl | rfl | rfl | rfl | rfl | rfl | rfl
  all_goals
    unfold meaningOf
    exact withOperand_refused_iff

/-- All that can stop an instruction, by mnemonic, form and opcode byte, in `s`: the counterpart of `Goes`. -/
inductive Stops (s : State) (op : Byte) : Mnemonic → Form → Refusal → Prop where
  | address (m : Mnemonic) (mf : MemForm) (r : Refusal) (he : effectiveAddress mf s = .error r) :
      Stops s op m (.data (.mem mf)) r
  | target (nn : Word) (r : Refusal) (ht : indirectTarget nn s = .error r) : Stops s op .jmp (.ind nn) r
  | noRor (fm : Form) (h : s.params.hasRor = false) : Stops s op .ror fm (.undefinedOpcode op)
  | decimal (m : Mnemonic) (src : Source) (d : Byte) (r : Refusal) (hm : m = .adc ∨ m = .sbc)
      (hd : operandByte src s = .ok d) (h : DecimalStops s d r) : Stops s op m (.data src) r

theorem Stops.of_operandByte_error {s : State} {op : Byte} (m : Mnemonic) {src : Source} {r : Refusal}
    (h : operandByte src s = .error r) : Stops s op m (.data src) r := by
  obtain ⟨mf, rfl, he⟩ := operandByte_error_iff.1 h
  exact .address m mf r he

/-- If an instruction is refused, it is for what `Stops` lists. -/
theorem exec_refused_cases {i : Instr} {s : State} {r : Refusal} (h : exec i s = .refused r) :
    Stops s i.opcode i.mnemonic i.form r := by
  have ok := hasForm_form i
  rw [exec_eq_meaningOf] at h
  generalize i.mnemonic = m at *
  generalize i.form = fm at *
  generalize i.opcode = op at *
  cases m
  case adc =>
    obtain ⟨src, rfl⟩ := ok
    rcases arithmeticOn_refused_iff.1 h with he | ⟨d, hd, hf⟩
    · exact .of_operandByte_error _ he
    · exact .decimal _ src d r (.inl rfl) hd (addOperand_error_iff.1 hf)
  case sbc =>
    obtain ⟨src, rfl⟩ := ok
    rcases arithmeticOn_refused_iff.1 h with he | ⟨d, hd, hf⟩
    · exact .of_operandByte_error _ he
    · exact .decimal _ src d r (.inr rfl) hd (subOperand_error_iff.1 hf)
  case cmp | cpx | cpy | and | eor | ora | bit | lda | ldx | ldy =>
    obtain ⟨src, rfl⟩ := ok
    exact .of_operandByte_error _ ((meaningOf_reader_refused_iff (by decide)).1 h)
  case sta | stx | sty =>
    obtain ⟨mf, rfl⟩ := ok
    exact .address _ mf r (storeAt_refused_iff.1 h)
  case inc | dec =>
    obtain ⟨mf, rfl⟩ := ok
    exact .address _ mf r (modifyAt_refused_iff.1 h)
  case asl | lsr | rol =>
    obtain rfl | ⟨mf, rfl⟩ := ok
    · cases h
    · exact .address _ mf r (modifyAt_refused_iff.1 h)
  case ror =>
    obtain rfl | ⟨mf, rfl⟩ := ok
    · obtain ⟨hror, rfl⟩ | ho := ifPresent_refused h
      · exact .noRor _ hror
      · cases ho
    · obtain ⟨hror, rfl⟩ | ho := ifPresent_refused h
      · exact .noRor _ hror
      · exact .address _ mf r (modifyAt_refused_iff.1 ho)
  case jmp =>
    obtain ⟨nn, rfl⟩ | ⟨nn, rfl⟩ := ok
    · exact .target nn r (execJmpInd_refused_iff.1 h)
    · cases h
  case jsr | bcc | bcs | beq | bne | bmi | bpl | bvc | bvs =>
    obtain ⟨_, rfl⟩ := ok
    cases h
  all_goals
    obtain rfl := (show fm = .imp from ok)
    cases h

/-- The mnemonics that have a form with a pointer in page 0 (R95): no shift, no rotate, no jump is among them. -/
theorem mnemonic_of_pointer_form {i : Instr} {n : Byte}
    (h : i.form = .data (.mem (.inx n)) ∨ i.form = .data (.mem (.iny n))) :
    i.mnemonic = .adc ∨ i.mnemonic = .sbc ∨ i.mnemonic = .sta ∨ i.mnemonic ∈ readers := by
  rcases h with h | h <;> cases i <;> cases h <;> simp [Instr.mnemonic, readers]

theorem eq_jmpInd_of_form {i : Instr} {nn : Word} (h : i.form = .ind nn) : i = .jmpInd nn := by
  cases i <;> cases h
  rfl

/-- An instruction whose effective address is refused is refused for the same reason. -/
theorem exec_of_effectiveAddress_error {i : Instr} {s : State} {m : MemForm} {r : Refusal}
    (hform : i.form = .data (.mem m)) (he : effectiveAddress m s = .error r) : exec i s = .refused r := by
  have hm : i.mnemonic = .adc ∨ i.mnemonic = .sbc ∨ i.mnemonic = .sta ∨ i.mnemonic ∈ readers := by
    obtain ⟨-, -, n, ⟨rfl, -⟩ | ⟨rfl, -⟩⟩ := effectiveAddress_error_iff.1 he
    · exact mnemonic_of_pointer_form (.inl hform)
    · exact mnemonic_of_pointer_form (.inr hform)
  have hd : operandByte (.mem m) s = .error r := operandByte_error_iff.2 ⟨m, rfl, he⟩
  rw [exec_eq_meaningOf, hform]
  obtain hm | hm | hm | hm := hm
  · rw [hm]
    exact arithmeticOn_refused_iff.2 (.inl hd)
  · rw [hm]
    exact arithmeticOn_refused_iff.2 (.inl hd)
  · rw [hm]
    exact storeAt_refused_iff.2 he
  · exact (meaningOf_reader_refused_iff hm).2 hd

theorem exec_ror_of_not_hasRor {i : Instr} {s : State} (hm : i.mnemonic = .ror) (h : s.params.hasRor = false) :
    exec i s = .refused (.undefinedOpcode i.opcode) := by
  have ok := hasForm_form i
  rw [hm] at ok
  rw [exec_eq_meaningOf, hm]
  obtain hf | ⟨m, hf⟩ := ok <;> rw [hf] <;> exact ifPresent_absent h

theorem exec_of_decimalStops {i : Instr} {s : State} {src : Source} {d : Byte} {r : Refusal}
    (hm : i.mnemonic = .adc ∨ i.mnemonic = .sbc) (hform : i.form = .data src) (hd : operandByte src s = .ok d)
    (h : DecimalStops s d r) : exec i s = .refused r := by
  rw [exec_eq_meaningOf, hform]
  obtain hm | hm := hm <;> rw [hm]
  · exact arithmeticOn_refused_iff.2 (.inr ⟨d, hd, addOperand_error_iff.2 h⟩)
  · exact arithmeticOn_refused_iff.2 (.inr ⟨d, hd, subOperand_error_iff.2 h⟩)

/-- Settles O57: the "if" part by form and mnemonic, the "only if" part by `exec_refused_cases`. -/
theorem instructionsStopOnlyForTheSpecsReasons : Obligations.InstructionsStopOnlyForTheSpecsReasons := by
  refine ⟨fun i s m r hform he => exec_of_effectiveAddress_error hform he, fun i s n hz hptr => ?_,
    fun i s hm h => exec_ror_of_not_hasRor hm h, fun i s r h => ?_⟩
  · obtain ⟨hform, hn⟩ | ⟨hform, hn⟩ := hptr
    · exact exec_of_effectiveAddress_error hform (effectiveAddress_error_iff.2 ⟨hz, rfl, n, .inl ⟨rfl, hn⟩⟩)
    · exact exec_of_effectiveAddress_error hform (effectiveAddress_error_iff.2 ⟨hz, rfl, n, .inr ⟨rfl, hn⟩⟩)
  · have hs := exec_refused_cases h
    generalize hmn : i.mnemonic = mn at hs
    generalize hform : i.form = fm at hs
    cases hs with
    | address _ mf _ he =>
      obtain ⟨hz, hr, n, ⟨rfl, hn⟩ | ⟨rfl, hn⟩⟩ := effectiveAddress_error_iff.1 he
      · exact .inr (.inl ⟨hz, hr, n, .inl ⟨rfl, hn⟩⟩)
      · exact .inr (.inl ⟨hz, hr, n, .inr ⟨rfl, hn⟩⟩)
    | target nn _ ht =>
      obtain ⟨hj, hr⟩ := indirectTarget_error ht
      exact .inr (.inr (.inl ⟨hj, hr, nn, eq_jmpInd_of_form hform, lowByte_of_indirectTarget_error ht⟩))
    | noRor _ hror => exact .inl ⟨rfl, hror, rfl⟩
    | decimal _ src d _ hm hd hdec =>
      obtain ⟨hflag, hmode | ⟨hmode, hb, hr⟩⟩ := hdec
      · exact .inr (.inr (.inr ⟨hm, hflag, .inl hmode⟩))
      · exact .inr (.inr (.inr ⟨hm, hflag, .inr ⟨hmode, hr, src, d, rfl, hd, hb⟩⟩))

end Sys2Proof.Machine
end

section
/-! What remains to stop a step when no parameter asks for a refusal. -/

namespace Sys2Proof.Machine

/-- Under the parameters that refuse least, an instruction stops on operands that are not BCD alone (R12, R122). -/
theorem takesNonBcd_of_exec_refused {i : Instr} {s : State} {r : Refusal} (hp : refusesLeast s.params)
    (h : exec i s = .refused r) : r = .decimalInvalidBcd ∧ takesNonBcd i s := by
  obtain ⟨hror, hzp, hjmp, hdec⟩ := hp
  obtain ⟨-, -, -, reasons⟩ := instructionsStopOnlyForTheSpecsReasons
  rcases reasons i s r h with ⟨-, hr, -⟩ | ⟨hz, -⟩ | ⟨hj, -⟩ | ⟨hm, hflag, ⟨hd, -⟩ | ⟨-, hr, operand⟩⟩
  · simp [hror] at hr
  · simp [hzp] at hz
  · exact absurd hj hjmp
  · simp [hdec] at hd
  · exact ⟨hr, hm, hflag, operand⟩

theorem exec_of_takesNonBcd {i : Instr} {s : State} (hmode : s.params.decimalMode = .bcdValidOnly)
    (h : takesNonBcd i s) : exec i s = .refused .decimalInvalidBcd := by
  obtain ⟨hm, hflag, src, d, hform, hd, hb⟩ := h
  exact exec_of_decimalStops hm hform hd ⟨hflag, .inr ⟨hmode, hb, rfl⟩⟩

/-- The hardware has no fault (log 23): an instruction goes on or is refused. -/
theorem exec_next_or_refused (i : Instr) (s : State) : (∃ t, exec i s = .next t) ∨ ∃ r, exec i s = .refused r := by
  cases exec i s with
  | next t => exact .inl ⟨t, rfl⟩
  | refused r => exact .inr ⟨r, rfl⟩
  | fault r => cases r

theorem spendOn_refused {k : Nat} {o : Host.Outcome State Fault Refusal} {r : Refusal}
    (h : spendOn k o = .refused r) : o = .refused r := by
  cases o with
  | refused r' => exact h
  | next | fault => cases h

/-- If a step is refused, it is at its fetch or by the instruction that it fetched (R228): no entry is refused. -/
theorem step_refused_cases {s : State} {r : Refusal} (h : step s = .refused r) :
    s.event = .instruction ∧ (s.atBoundary.fetch = .error r ∨
      ∃ i, s.atBoundary.fetch = .ok i ∧ exec i s.atBoundary = .refused r) := by
  unfold step at h
  cases he : s.event <;> simp only [he, reduceCtorEq] at h
  refine ⟨rfl, ?_⟩
  unfold runInstruction at h
  cases hf : s.atBoundary.fetch with
  | error r' => exact .inl (by simpa [hf] using h)
  | ok i => exact .inr ⟨i, rfl, spendOn_refused (k := cyclesOf i s.atBoundary) (by simpa [hf] using h)⟩

/-- Settles O56: of the reasons of O57 these parameters leave one, and a step adds the undefined opcode byte. -/
theorem onlyNonBcdStopsAnInstructionUnderRefusesLeast :
    Obligations.OnlyNonBcdStopsAnInstructionUnderRefusesLeast := by
  intro s hp
  refine ⟨fun i hbcd => ?_, fun i hbcd => ?_, fun r h => ?_⟩
  · refine (exec_next_or_refused i s).resolve_right fun ⟨r, hr⟩ => hbcd ?_
    exact (takesNonBcd_of_exec_refused hp hr).2
  · obtain ⟨-, -, -, hmode⟩ := hp
    exact exec_of_takesNonBcd hmode hbcd
  · obtain ⟨hevent, hfetch | ⟨i, hi, hr⟩⟩ := step_refused_cases h
    · exact ⟨hevent, .inl (fetch_error s.atBoundary r hfetch)⟩
    · obtain ⟨hreason, hbcd⟩ := takesNonBcd_of_exec_refused (s := s.atBoundary) hp hr
      exact ⟨hevent, .inr ⟨hreason, i, hi, hbcd⟩⟩

end Sys2Proof.Machine
end

section
/-! The flags that each instruction may change (spec 10_state.md R30, R35). -/

namespace Sys2Proof.Machine

/-- Settles O12: Z is the model's own test written as a proposition, and bit 7 says that the byte is at least 128. -/
theorem setNZTakesSignAndZero : Obligations.SetNZTakesSignAndZero :=
  fun v _ => ⟨BitVec.msb_eq_decide v, rfl, rfl, rfl, rfl, rfl⟩

/-- From `f` to `g` no flag changes but those in `ws`. -/
def ChangesOnlyFlags (ws : List FlagName) (f g : Flags) : Prop := ∀ x, x ∉ ws → flagValue x g = flagValue x f

/-- The same, flag by flag. -/
theorem changesOnlyFlags_iff {ws : List FlagName} {f g : Flags} :
    ChangesOnlyFlags ws f g ↔
      (.n ∉ ws → g.n = f.n) ∧ (.v ∉ ws → g.v = f.v) ∧ (.d ∉ ws → g.d = f.d) ∧
      (.i ∉ ws → g.i = f.i) ∧ (.z ∉ ws → g.z = f.z) ∧ (.c ∉ ws → g.c = f.c) := by
  constructor
  · intro h
    exact ⟨h .n, h .v, h .d, h .i, h .z, h .c⟩
  · rintro ⟨hn, hv, hd, hi, hz, hc⟩ (_ | _ | _ | _ | _ | _)
    exacts [hn, hv, hd, hi, hz, hc]

theorem ChangesOnlyFlags.refl (ws : List FlagName) (f : Flags) : ChangesOnlyFlags ws f f := fun _ _ => rfl

/-- Where every flag is named, nothing is claimed. -/
theorem changesOnlyFlags_all (f g : Flags) : ChangesOnlyFlags [.n, .v, .d, .i, .z, .c] f g := by
  simp [changesOnlyFlags_iff]

theorem setNZ_changesOnlyFlags (v : Byte) (f : Flags) : ChangesOnlyFlags [.n, .z] f (f.setNZ v) := by
  simp [changesOnlyFlags_iff]

theorem compare_changesOnlyFlags (r d : Byte) (f : Flags) : ChangesOnlyFlags [.n, .z, .c] f (f.compare r d) := by
  simp [changesOnlyFlags_iff]

theorem bitTest_changesOnlyFlags (a d : Byte) (f : Flags) : ChangesOnlyFlags [.n, .v, .z] f (f.bitTest a d) := by
  simp [changesOnlyFlags_iff]

/-- Arithmetic, binary or decimal, writes N, V, Z and C (R120 to R122). -/
theorem nvzc_changesOnlyFlags (n v z c : Bool) (f : Flags) :
    ChangesOnlyFlags [.n, .v, .z, .c] f { f with n := n, v := v, z := z, c := c } := by
  simp [changesOnlyFlags_iff]

/-- Shifts and rotates write N, Z and C (R140 to R143). -/
theorem nzc_changesOnlyFlags (n z c : Bool) (f : Flags) :
    ChangesOnlyFlags [.n, .z, .c] f { f with n := n, z := z, c := c } := by
  simp [changesOnlyFlags_iff]

theorem Computes.changesOnlyFlags {s u : State} {d : Byte} {m : Mnemonic} (h : Computes s d m u) :
    ChangesOnlyFlags (flagsWritten m) s.p u.p := by
  cases h with
  | adc | adcDecimal | sbc | sbcDecimal => exact nvzc_changesOnlyFlags _ _ _ _ s.p
  | and | eor | ora | lda | ldx | ldy => exact setNZ_changesOnlyFlags _ s.p
  | cmp | cpx | cpy => exact compare_changesOnlyFlags _ d s.p
  | bit => exact bitTest_changesOnlyFlags s.a d s.p

theorem Modifies.changesOnlyFlags {m : Mnemonic} {op : Byte → Flags → Byte × Flags} (h : Modifies m op) (v : Byte)
    (f : Flags) : ChangesOnlyFlags (flagsWritten m) f (op v f).2 := by
  cases h with
  | asl | lsr | rol | ror => exact nzc_changesOnlyFlags _ _ _ f
  | inc | dec => exact setNZ_changesOnlyFlags _ f

theorem Implies.changesOnlyFlags {s u : State} {m : Mnemonic} (h : Implies s m u) :
    ChangesOnlyFlags (flagsWritten m) s.p u.p := by
  cases h with
  | clc | cld | cli | clv | sec | sed | sei => simp [changesOnlyFlags_iff, flagsWritten]
  | dex | dey | inx | iny | tax | tay | tsx | txa | tya | pla => exact setNZ_changesOnlyFlags _ s.p
  | plp => exact changesOnlyFlags_all _ _
  | txs | nop => exact .refl _ s.p

/-- Every instruction keeps to its row of the flags table. -/
theorem Goes.changesOnlyFlags {s t : State} {m : Mnemonic} {fm : Form} (h : Goes s m fm t) :
    ChangesOnlyFlags (flagsWritten m) s.p t.p := by
  cases h with
  | compute _ _ _ _ _ hu => exact hu.changesOnlyFlags
  | implied _ _ hu => exact hu.changesOnlyFlags
  | modify _ _ _ _ _ hf | modifyA _ _ hf => exact hf.changesOnlyFlags _ s.p
  | brk => simp [changesOnlyFlags_iff, flagsWritten]
  | rti => exact changesOnlyFlags_all _ _
  | branch | jump | jumpIndirect | rts => exact .refl _ s.p
  | store | push | jsr =>
    simp only [State.advance_p, State.writeByte_p, State.push8_p, State.push16_p]
    exact .refl _ s.p

/-- Settles O14: `Goes.changesOnlyFlags` of what the instruction did. -/
theorem flagsChangeOnlyAsTheFlagTableSays : Obligations.FlagsChangeOnlyAsTheFlagTableSays :=
  fun _ _ _ h => (exec_next_cases h).changesOnlyFlags

end Sys2Proof.Machine
end

section
/-! The registers and the memory that each instruction may change (spec 10_state.md R42). -/

namespace Sys2Proof.Machine

/-- From `s` to `t` nothing changes but P, the pc and the resources in `ws`. -/
structure ChangesOnly (ws : List Resource) (s t : State) : Prop where
  resources : ∀ r, r ∉ ws → sameResource r s t
  nmiPending : t.nmiPending = s.nmiPending
  inputs : t.inputs = s.inputs
  params : t.params = s.params
  turn : t.turn = s.turn
  cycles : t.cycles = s.cycles

theorem sameResource_trans {r : Resource} {s t u : State} (hst : sameResource r s t) (htu : sameResource r t u) :
    sameResource r s u := by
  cases r <;> simp_all [sameResource]

theorem ChangesOnly.trans {ws : List Resource} {s t u : State} (hst : ChangesOnly ws s t) (htu : ChangesOnly ws t u) :
    ChangesOnly ws s u where
  resources r hr := sameResource_trans (hst.resources r hr) (htu.resources r hr)
  nmiPending := htu.nmiPending.trans hst.nmiPending
  inputs := htu.inputs.trans hst.inputs
  params := htu.params.trans hst.params
  turn := htu.turn.trans hst.turn
  cycles := htu.cycles.trans hst.cycles

theorem ChangesOnly.mono {ws ws' : List Resource} {s t : State} (hws : ws ⊆ ws') (h : ChangesOnly ws s t) :
    ChangesOnly ws' s t :=
  { h with resources := fun r hr => h.resources r fun hmem => hr (hws hmem) }

/-- The pc and P are no resources: what they are set to does not matter. -/
theorem changesOnly_pc_p (ws : List Resource) (s : State) (pc : Word) (p : Flags) :
    ChangesOnly ws s { s with pc := pc, p := p } :=
  ⟨fun r _ => by cases r <;> simp [sameResource], rfl, rfl, rfl, rfl, rfl⟩

theorem changesOnly_a (s : State) (a : Byte) (p : Flags) : ChangesOnly [.a] s { s with a := a, p := p } :=
  ⟨fun r hr => by cases r <;> simp_all [sameResource], rfl, rfl, rfl, rfl, rfl⟩

theorem changesOnly_x (s : State) (x : Byte) (p : Flags) : ChangesOnly [.x] s { s with x := x, p := p } :=
  ⟨fun r hr => by cases r <;> simp_all [sameResource], rfl, rfl, rfl, rfl, rfl⟩

theorem changesOnly_y (s : State) (y : Byte) (p : Flags) : ChangesOnly [.y] s { s with y := y, p := p } :=
  ⟨fun r hr => by cases r <;> simp_all [sameResource], rfl, rfl, rfl, rfl, rfl⟩

theorem changesOnly_s (s : State) (sp : Byte) (p : Flags) : ChangesOnly [.s] s { s with sp := sp, p := p } :=
  ⟨fun r hr => by cases r <;> simp_all [sameResource], rfl, rfl, rfl, rfl, rfl⟩

/-- What follows the change of a resource may set the pc and P. -/
theorem ChangesOnly.with_pc_p {ws : List Resource} {s t : State} (h : ChangesOnly ws s t) (pc : Word) (p : Flags) :
    ChangesOnly ws s { t with pc := pc, p := p } :=
  h.trans (changesOnly_pc_p ws t pc p)

/-- A write stores a byte in memory or adds an output event (R51). -/
theorem writeByte_changesOnly (s : State) (addr : Word) (v : Byte) : ChangesOnly [.memory] s (s.writeByte addr v) :=
  ⟨fun r hr => by cases r <;> simp_all [sameResource], by simp, by simp, by simp, by simp, by simp⟩

theorem push8_changesOnly (s : State) (v : Byte) : ChangesOnly [.s, .memory] s (s.push8 v) :=
  ((writeByte_changesOnly s (stackAddress s.sp) v).mono (by simp)).trans ((changesOnly_s _ _ _).mono (by simp))

theorem push16_changesOnly (s : State) (w : Word) : ChangesOnly [.s, .memory] s (s.push16 w) :=
  (push8_changesOnly s (highByte w)).trans (push8_changesOnly _ (lowByte w))

theorem takeException_changesOnly (s : State) (b : Bool) (ret vector : Word) :
    ChangesOnly [.s, .memory] s (s.takeException b ret vector) :=
  ((push16_changesOnly s ret).trans (push8_changesOnly _ (s.p.pByte b))).with_pc_p _ _

theorem Computes.changesOnly {i : Instr} {s u : State} {d : Byte} (h : Computes s d i.mnemonic u) :
    ChangesOnly (resourcesWritten i) s u := by
  unfold resourcesWritten
  generalize i.mnemonic = m at h
  cases h with
  | adc | adcDecimal | sbc | sbcDecimal | and | eor | ora | lda => exact changesOnly_a s _ _
  | ldx => exact changesOnly_x s _ _
  | ldy => exact changesOnly_y s _ _
  | cmp | cpx | cpy | bit => exact changesOnly_pc_p [] s s.pc _

theorem Implies.changesOnly {i : Instr} {s u : State} (h : Implies s i.mnemonic u) :
    ChangesOnly (resourcesWritten i) s u := by
  unfold resourcesWritten
  generalize i.mnemonic = m at h
  cases h with
  | txa | tya => exact changesOnly_a s _ _
  | dex | inx | tax | tsx => exact changesOnly_x s _ _
  | dey | iny | tay => exact changesOnly_y s _ _
  | txs | plp => exact changesOnly_s s _ _
  | pla => exact ((changesOnly_s s _ s.p).mono (by simp)).trans ((changesOnly_a s.pull8 _ _).mono (by simp))
  | clc | cld | cli | clv | sec | sed | sei | nop => exact changesOnly_pc_p [] s s.pc _

theorem Modifies.resourcesWritten_mem {i : Instr} {f : Byte → Flags → Byte × Flags} {mf : MemForm}
    (h : Modifies i.mnemonic f) (hform : i.form = .data (.mem mf)) : resourcesWritten i = [.memory] := by
  unfold resourcesWritten
  rw [hform]
  generalize i.mnemonic = m at h
  cases h <;> rfl

/-- INC and DEC have no Accumulator form. -/
theorem resourcesWritten_acc {i : Instr} (hform : i.form = .acc) : resourcesWritten i = [.a] := by
  cases i <;> cases hform <;> rfl

/-- Every instruction keeps to its row of the register-use table. -/
theorem Goes.changesOnly {i : Instr} {s t : State} (h : Goes s i.mnemonic i.form t) :
    ChangesOnly (resourcesWritten i) s t := by
  generalize hm : i.mnemonic = m at h
  generalize hf : i.form = fm at h
  cases h with
  | compute _ _ _ _ _ hu =>
    subst hm
    exact hu.changesOnly.with_pc_p _ _
  | implied _ _ hu =>
    subst hm
    exact hu.changesOnly.with_pc_p _ _
  | modify _ _ _ _ _ hmod =>
    subst hm
    rw [hmod.resourcesWritten_mem hf]
    exact (writeByte_changesOnly s _ _).with_pc_p _ _
  | modifyA =>
    rw [resourcesWritten_acc hf]
    exact (changesOnly_a s _ _).with_pc_p _ _
  | store _ _ _ _ _ hs =>
    unfold resourcesWritten
    obtain ⟨rfl, -⟩ | ⟨rfl, -⟩ | ⟨rfl, -⟩ := hs <;> rw [hm] <;> exact (writeByte_changesOnly s _ _).with_pc_p _ _
  | push _ _ hp =>
    unfold resourcesWritten
    obtain ⟨rfl, -⟩ | ⟨rfl, -⟩ := hp <;> rw [hm] <;> exact (push8_changesOnly s _).with_pc_p _ _
  | jsr =>
    unfold resourcesWritten
    rw [hm]
    exact (push16_changesOnly s _).with_pc_p _ _
  | brk =>
    unfold resourcesWritten
    rw [hm]
    exact takeException_changesOnly s _ _ _
  | rts | rti =>
    unfold resourcesWritten
    rw [hm]
    exact (changesOnly_s s _ _).with_pc_p _ _
  | branch | jump | jumpIndirect => exact changesOnly_pc_p _ s _ s.p

/-- Settles O38: `Goes.changesOnly`, and a read that sees the same memory gives the same byte. -/
theorem instructionsChangeOnlyWhatTheUseTableSays : Obligations.InstructionsChangeOnlyWhatTheUseTableSays := by
  intro i s t h
  obtain ⟨hres, hnmi, hin, hparams, hturn, hcycles⟩ := (exec_next_cases h).changesOnly
  refine ⟨hres, fun hmem use addr => ?_, hnmi, hin, hparams, hturn, hcycles⟩
  obtain ⟨hsame, -⟩ : t.mem = s.mem ∧ t.outputs = s.outputs := hres .memory hmem
  rw [readByte_congr hparams hsame hturn]

/-- Settles O36: of all that an instruction can do, only a write to the effective address is left by the form and the
mnemonic. -/
theorem storesChangeOnlyTheEffectiveAddress : Obligations.StoresChangeOnlyTheEffectiveAddress := by
  intro i s t m ea hmn hform he h use addr hne
  have hgoes := exec_next_cases h
  rw [hform] at hgoes
  generalize i.mnemonic = mn at hmn hgoes
  cases hgoes with
  | store _ _ ea' _ he' | modify _ _ ea' _ he' =>
    obtain rfl := Except.ok.inj (he.symm.trans he')
    exact readByte_writeByte_other s ea addr _ use hne
  | compute _ _ _ _ _ hu => cases hu <;> simp at hmn
  | jump | jsr => simp at hmn

end Sys2Proof.Machine
end

section
/-! What a boundary leads to: an instruction as its bytes decode, or an entry; which of them can change D (spec
10_state.md R31, 60_exceptions.md R228, R258). Last, the state after reset. -/

namespace Sys2Proof.Machine

/-- The instructions that may change D, by the flags table (R31, R35). -/
theorem d_mem_flagsWritten_iff (m : Mnemonic) : .d ∈ flagsWritten m ↔ m ∈ [.cld, .sed, .plp, .rti] := by
  cases m <;> decide

theorem atBoundary_p_d (s : State) : s.atBoundary.p.d = s.p.d := by
  rw [State.atBoundary_p_except_v]

theorem exec_keeps_d {i : Instr} {s t : State} (h : exec i s = .next t) (hi : i.mnemonic ∉ [.cld, .sed, .plp, .rti]) :
    t.p.d = s.p.d :=
  flagsChangeOnlyAsTheFlagTableSays i s t h .d (mt (d_mem_flagsWritten_iff _).1 hi)

theorem lines_res_of_event_reset {s : State} (h : s.event = .reset) : s.lines.res = true := by
  rcases event_cases s with ⟨-, hres⟩ | ⟨he, -⟩ | ⟨he, -⟩ | ⟨he, -⟩
  · exact hres
  all_goals simp [h] at he

/-- Settles O49: an entry other than RES pushes P and sets I; an instruction keeps to the flags table. -/
theorem decimalFlagIsSticky : Obligations.DecimalFlagIsSticky := by
  intro s t h hres hd
  rcases step_next_cases h with ⟨he, -⟩ | ⟨-, rfl⟩ | ⟨-, rfl⟩ | ⟨he, i, u, hi, hu, rfl⟩
  · simp [lines_res_of_event_reset he] at hres
  · simp [atBoundary_p_d] at hd
  · simp [atBoundary_p_d] at hd
  · refine ⟨he, i, hi, ?_⟩
    by_contra hmn
    exact hd ((exec_keeps_d hu hmn).trans (atBoundary_p_d s))

/-- No line is recognised: RES is quiet, no NMI waits, and IRQ is high or masked (R228). -/
theorem event_of_quiet_lines {s : State} (hres : s.lines.res = false) (hnmi : s.nmiPending = false)
    (hfell : s.lines.nmiFell = false) (hirq : s.lines.irqLow = true → s.p.i = true) : s.event = .instruction := by
  rcases event_cases s with ⟨-, h⟩ | ⟨-, -, h⟩ | ⟨-, -, -, hlow, hi⟩ | ⟨he, -⟩
  · simp [hres] at h
  · simp [hnmi, hfell] at h
  · simp [hirq hlow] at hi
  · exact he

theorem runInstruction_of_fetch {s : State} {i : Instr} (h : s.fetch = .ok i) :
    runInstruction s = spendOn (cyclesOf i s) (exec i s) := by
  simp [runInstruction, h]

/-- Settles O50: the boundary leads to an instruction, and the fetch is the decoding of its bytes. -/
theorem stepRunsTheDecodedInstruction : Obligations.StepRunsTheDecodedInstruction := by
  intro s i rest hres hnmi hfell hirq hdecode _
  have hevent : s.event = .instruction := event_of_quiet_lines hres hnmi hfell hirq
  have hfetch : s.atBoundary.fetch = .ok i := fetch_of_decode s.atBoundary i rest hdecode
  calc step s = runInstruction s.atBoundary := by simp [step, hevent]
    _ = spendOn (cyclesOf i s.atBoundary) (exec i s.atBoundary) := runInstruction_of_fetch hfetch

/-- Settles O52: each clause is a field of `State.reset` or of `resetParams`. -/
theorem resetStateIsTheSpecs : Obligations.ResetStateIsTheSpecs :=
  ⟨rfl, rfl, rfl, rfl, rfl, rfl, rfl, rfl, rfl⟩

/-- Settles O53: after reset memory and the output events are empty lists. -/
theorem resetMeetsTheInvariant : Obligations.ResetMeetsTheInvariant :=
  ⟨reset_mem_wf, List.forall_mem_nil _, List.forall_mem_nil _⟩

end Sys2Proof.Machine
end

section
/-! Memory and its platform (spec 20_memory.md R50 to R53, R66): a read after a write, by cell and by kind, and what a
fetch sees of a store. First, the invariant that every step keeps; last, sample words of the decoder. -/

namespace Sys2Proof.Machine

/-- Only the memory, the output events and the parameters of the later state matter. -/
theorem State.Inv.congr {s t : State} (h : s.Inv) (hm : t.mem = s.mem) (ho : t.outputs = s.outputs)
    (hp : t.params = s.params) : t.Inv :=
  (Inv_congr hm ho hp).2 h

theorem Computes.keepsInv {s u : State} {d : Byte} {m : Mnemonic} (h : Computes s d m u) (hs : s.Inv) : u.Inv := by
  cases h <;> exact hs.congr rfl rfl rfl

theorem Implies.keepsInv {s u : State} {m : Mnemonic} (h : Implies s m u) (hs : s.Inv) : u.Inv := by
  cases h <;> exact hs.congr rfl rfl rfl

/-- Every instruction keeps the invariant: what it writes to memory, it writes by `writeByte` or a push. -/
theorem Goes.keepsInv {s t : State} {m : Mnemonic} {fm : Form} (h : Goes s m fm t) (hs : s.Inv) : t.Inv := by
  cases h with
  | compute _ _ _ _ _ hu => exact (hu.keepsInv hs).congr rfl rfl rfl
  | implied _ _ hu => exact (hu.keepsInv hs).congr rfl rfl rfl
  | store | modify => exact (writeByte_Inv s _ _ hs).congr rfl rfl rfl
  | push => exact (push8_Inv s _ hs).congr rfl rfl rfl
  | jsr => exact (push16_Inv s _ hs).congr rfl rfl rfl
  | brk => exact takeException_Inv s _ _ _ hs
  | modifyA | branch | jump | jumpIndirect | rts | rti => exact hs.congr rfl rfl rfl

/-- The boundary, each entry and each instruction keep the invariant. -/
theorem step_keepsInv {s t : State} (h : step s = .next t) (hs : s.Inv) : t.Inv := by
  have hb : s.atBoundary.Inv := (atBoundary_Inv s).2 hs
  rcases step_next_cases h with ⟨-, rfl⟩ | ⟨-, rfl⟩ | ⟨-, rfl⟩ | ⟨-, i, u, -, hu, rfl⟩
  · exact hb.congr rfl rfl rfl
  · exact (takeException_Inv _ false s.pc nmiVector hb).congr rfl rfl rfl
  · exact (takeException_Inv _ false s.pc irqVector hb).congr rfl rfl rfl
  · exact ((exec_next_cases hu).keepsInv hb).congr rfl rfl rfl

/-- Settles O54, by the case split over what a step can do. -/
theorem stepKeepsTheInvariant : Obligations.StepKeepsTheInvariant :=
  fun _ _ hs h => step_keepsInv h hs

/-- Settles O6, by the two laws of a read after a write. -/
theorem memoryReadsBackTheLastWrite : Obligations.MemoryReadsBackTheLastWrite := by
  intro m a c v hwf
  split
  · next h => rw [h, Memory.read_write_self m a v hwf]
  · next h => exact Memory.read_write_other m a c v h

theorem writeByte_rom {s : State} {addr : Word} (v : Byte) (h : kindAt s.params addr = .rom) :
    s.writeByte addr v = s := by
  simp [State.writeByte, h]

/-- Where neither RAM nor ROM stands, a write is an output event (R51, log 12). -/
theorem writeByte_of_not_memory {s : State} {addr : Word} (v : Byte)
    (h : kindAt s.params addr = .io ∨ kindAt s.params addr = .unpopulated) :
    s.writeByte addr v = { s with outputs := (addr.toNat, v) :: s.outputs } := by
  rcases h with h | h <;> simp [State.writeByte, h]

/-- Settles O7, by one law per kind of location and the frame of every write. -/
theorem writesActByTheKindOfTheLocation : Obligations.WritesActByTheKindOfTheLocation := by
  intro s addr v ⟨hwf, _, _⟩
  refine ⟨fun hram use => readByte_writeByte_ram s addr v use hwf hram, writeByte_rom v, fun hdev => ?_,
    fun use other hne => readByte_writeByte_other s addr other v use hne⟩
  rw [writeByte_of_not_memory v hdev]
  exact ⟨rfl, rfl⟩

theorem toNat_zeroPage (k : Byte) : (zeroPage k).toNat = k.toNat := toNat_zeroExtend16 k

theorem toNat_stackAddress (k : Byte) : (stackAddress k).toNat = 256 + k.toNat := by
  have := k.isLt
  rw [stackAddress, BitVec.toNat_add, toNat_zeroExtend16]
  simp
  omega

theorem cellOf_zeroPage (p : Params) (k : Byte) : cellOf p (zeroPage k) = k.toNat := by
  have := k.isLt
  simp only [cellOf, toNat_zeroPage]
  split <;> omega

/-- The cell of a stack location: in page 1, or in page 0 under `STACK_IN_PAGE_ZERO` (R59, R66). -/
theorem cellOf_stackAddress (p : Params) (k : Byte) :
    cellOf p (stackAddress k) = if p.stackInPageZero then k.toNat else 256 + k.toNat := by
  have := k.isLt
  have hlow : 256 + k.toNat < 0x200 := by omega
  have hmod : k.toNat % 256 = k.toNat := Nat.mod_eq_of_lt this
  simp [cellOf, toNat_stackAddress, hlow, hmod]

/-- What stands at an address is a matter of its cell. -/
theorem kindAt_congr {p : Params} {a b : Word} (h : cellOf p a = cellOf p b) : kindAt p a = kindAt p b :=
  congrArg (kindIn p.memMap) h

/-- RAM gives the contents of its cell, in any role and at any turn (R51). -/
theorem readByte_ram {s : State} {addr : Word} (use : Access) (h : kindAt s.params addr = .ram) :
    s.readByte use addr = s.mem.read (cellOf s.params addr) := by
  simp [State.readByte, h]

/-- RAM reads back what was written by any address of the same cell (R66). -/
theorem readByte_writeByte_same_cell {s : State} {addr other : Word} (v : Byte) (use : Access)
    (hwf : s.mem.wf = true) (hram : kindAt s.params addr = .ram)
    (hcell : cellOf s.params other = cellOf s.params addr) :
    (s.writeByte addr v).readByte use other = v := by
  have hother : kindAt s.params other = .ram := (kindAt_congr hcell).trans hram
  calc (s.writeByte addr v).readByte use other
      = (s.writeByte addr v).readByte use addr := by
        rw [readByte_ram use (by simpa using hother), readByte_ram use (by simpa using hram)]
        simp [hcell]
    _ = v := readByte_writeByte_ram s addr v use hwf hram

/-- Settles O8: under the option the two locations are one cell; without it the cell is the address. -/
theorem stackInPageZeroAliasesTheTwoPages : Obligations.StackInPageZeroAliasesTheTwoPages := by
  intro s k v ⟨hwf, _, _⟩
  refine ⟨fun hopt hram => ?_, fun hopt a b hcell => ?_, toNat_zeroPage k, toNat_stackAddress k⟩
  · have hcell : cellOf s.params (stackAddress k) = cellOf s.params (zeroPage k) := by
      rw [cellOf_stackAddress, cellOf_zeroPage, if_pos hopt]
    exact ⟨fun use => readByte_writeByte_same_cell v use hwf ((kindAt_congr hcell).trans hram) hcell.symm,
      fun use => readByte_writeByte_same_cell v use hwf hram hcell⟩
  · rw [cellOf_of_not_stackInPageZero hopt, cellOf_of_not_stackInPageZero hopt] at hcell
    exact BitVec.eq_of_toNat_eq hcell

/-- A defined opcode byte is fetched with as many of the two bytes after it as its shape asks for (R75). -/
theorem fetch_of_opcodeShape {s : State} {shape : Shape} (h : opcodeShape (s.readByte .opcode s.pc) = some shape) :
    s.fetch = .ok (shape.complete (s.readByte .operandLow (s.pc + 1)) (s.readByte .operandHigh (s.pc + 2))) := by
  simp [State.fetch, h]

theorem fetch_writeByte_opcode {s : State} {v : Byte} {shape : Shape} (hwf : s.mem.wf = true)
    (hram : kindAt s.params s.pc = .ram) (hv : opcodeShape v = some shape) :
    (s.writeByte s.pc v).fetch
      = .ok (shape.complete (s.readByte .operandLow (s.pc + 1)) (s.readByte .operandHigh (s.pc + 2))) := by
  obtain ⟨h1, h2, -⟩ := cellOf_next_ne s.params s.pc
  have hop : (s.writeByte s.pc v).readByte .opcode s.pc = v := readByte_writeByte_ram s s.pc v .opcode hwf hram
  rw [fetch_of_opcodeShape (shape := shape)
      (by rw [State.writeByte_pc, hop, hv]), State.writeByte_pc,
    readByte_writeByte_other _ _ _ _ _ h1, readByte_writeByte_other _ _ _ _ _ h2]

theorem fetch_writeByte_operandLow {s : State} {v : Byte} {shape : Shape} (hwf : s.mem.wf = true)
    (hram : kindAt s.params (s.pc + 1) = .ram) (hop : opcodeShape (s.readByte .opcode s.pc) = some shape) :
    (s.writeByte (s.pc + 1) v).fetch = .ok (shape.complete v (s.readByte .operandHigh (s.pc + 2))) := by
  obtain ⟨h1, -, h3⟩ := cellOf_next_ne s.params s.pc
  rw [fetch_of_opcodeShape (shape := shape)
      (by rw [State.writeByte_pc, readByte_writeByte_other _ _ _ _ _ h1.symm, hop]),
    State.writeByte_pc, readByte_writeByte_ram s _ v _ hwf hram, readByte_writeByte_other _ _ _ _ _ h3]

theorem fetch_writeByte_operandHigh {s : State} {v : Byte} {shape : Shape} (hwf : s.mem.wf = true)
    (hram : kindAt s.params (s.pc + 2) = .ram) (hop : opcodeShape (s.readByte .opcode s.pc) = some shape) :
    (s.writeByte (s.pc + 2) v).fetch = .ok (shape.complete (s.readByte .operandLow (s.pc + 1)) v) := by
  obtain ⟨-, h2, h3⟩ := cellOf_next_ne s.params s.pc
  rw [fetch_of_opcodeShape (shape := shape)
      (by rw [State.writeByte_pc, readByte_writeByte_other _ _ _ _ _ h2.symm, hop]),
    State.writeByte_pc, readByte_writeByte_ram s _ v _ hwf hram, readByte_writeByte_other _ _ _ _ _ h3.symm]

/-- Settles O11: a shape completes to its instruction, whichever of the three bytes the store changed. -/
theorem fetchSeesTheLastStore : Obligations.FetchSeesTheLastStore := by
  intro s v ⟨hwf, _, _⟩
  refine ⟨fun hram => ⟨?_, ?_, ?_⟩, fun hram => ⟨?_, ?_⟩, fun hram => ?_⟩
  · exact fun i hv => fetch_writeByte_opcode (shape := .one i) hwf hram hv
  · exact fun mk hv => fetch_writeByte_opcode (shape := .two mk) hwf hram hv
  · exact fun mk hv => fetch_writeByte_opcode (shape := .three mk) hwf hram hv
  · exact fun mk hop => fetch_writeByte_operandLow (shape := .two mk) hwf hram hop
  · exact fun mk hop => fetch_writeByte_operandLow (shape := .three mk) hwf hram hop
  · exact fun mk hop => fetch_writeByte_operandHigh (shape := .three mk) hwf hram hop

/-- Settles O4, by running the decoder on each word. -/
theorem sampleWordsDecode : Obligations.SampleWordsDecode :=
  ⟨rfl, rfl, rfl, rfl, rfl, rfl, rfl, rfl⟩

end Sys2Proof.Machine
end

section
/-! The stack (spec 20_memory.md R59 to R65): what a push stores and leaves, that a pull undoes it, and the pushed image of
P. -/

namespace Sys2Proof.Machine

/-- Two stack locations never share a cell, aliased or not (R59, R66). -/
theorem cellOf_stackAddress_ne (p : Params) {j k : Byte} (h : j ≠ k) :
    cellOf p (stackAddress j) ≠ cellOf p (stackAddress k) := by
  have hne : j.toNat ≠ k.toNat := mt BitVec.eq_of_toNat_eq h
  rw [cellOf_stackAddress, cellOf_stackAddress]
  split <;> omega

/-- The byte of a push is in the location that was free (R60). -/
theorem readByte_push8_self {s : State} (v : Byte) (use : Access) (hs : s.Inv) (hram : stackIsRam s.params) :
    (s.push8 v).readByte use (stackAddress s.sp) = v :=
  readByte_writeByte_ram s _ v use hs.1 (hram s.sp)

theorem readByte_push8_other {s : State} {addr : Word} (v : Byte) (use : Access)
    (h : cellOf s.params addr ≠ cellOf s.params (stackAddress s.sp)) :
    (s.push8 v).readByte use addr = s.readByte use addr :=
  readByte_writeByte_other s _ addr v use h

/-- The high byte of a word is pushed to the free location, and the push of the low byte leaves it there (R62). -/
theorem readByte_push16_high {s : State} (w : Word) (use : Access) (hs : s.Inv) (hram : stackIsRam s.params) :
    (s.push16 w).readByte use (stackAddress s.sp) = highByte w := by
  have hne : s.sp ≠ (s.push8 (highByte w)).sp := by
    rw [State.push8_sp]
    bv_omega
  calc (s.push16 w).readByte use (stackAddress s.sp)
      = (s.push8 (highByte w)).readByte use (stackAddress s.sp) :=
        readByte_push8_other _ use (cellOf_stackAddress_ne _ hne)
    _ = highByte w := readByte_push8_self _ use hs hram

/-- The low byte of a word is pushed one place below the high byte, mod 256 (R62, R64). -/
theorem readByte_push16_low {s : State} (w : Word) (use : Access) (hs : s.Inv) (hram : stackIsRam s.params) :
    (s.push16 w).readByte use (stackAddress (s.sp - 1)) = lowByte w := by
  have hsp : s.sp - 1 = (s.push8 (highByte w)).sp := by simp
  rw [hsp]
  exact readByte_push8_self _ use (push8_Inv s _ hs) (by simpa using hram)

/-- Settles O10: the byte that each of the two pushes left, and the addresses and bytes as numbers. -/
theorem pushOfAWordStoresHighByteFirst : Obligations.PushOfAWordStoresHighByteFirst := by
  intro s w use hs hram
  have hsp : (s.push16 w).sp = s.sp - 2 := by
    rw [State.push16_sp]
    bv_omega
  exact ⟨readByte_push16_high w use hs hram, readByte_push16_low w use hs hram, hsp, toNat_stackAddress,
    toNat_highByte w, toNat_lowByte w⟩

/-- A pull reads the location above the free one, which is where the push before it stored (R60, R61). -/
theorem pulledByte_push8 {s : State} (v : Byte) (hs : s.Inv) (hram : stackIsRam s.params) :
    (s.push8 v).pulledByte = v := by
  rw [State.pulledByte, State.push8_sp, BitVec.sub_add_cancel]
  exact readByte_push8_self v .stack hs hram

theorem pulledWord_push16 {s : State} (w : Word) (hs : s.Inv) (hram : stackIsRam s.params) :
    (s.push16 w).pulledWord = w := by
  have hlow : (s.push16 w).pulledByte = lowByte w := by
    rw [State.pulledByte, State.push16_sp, BitVec.sub_add_cancel]
    exact readByte_push16_low w .stack hs hram
  have hhigh : (s.push16 w).pull8.pulledByte = highByte w := by
    rw [State.pulledByte, State.pull8_sp, State.push16_sp, BitVec.sub_add_cancel, BitVec.sub_add_cancel]
    exact readByte_push16_high w .stack hs hram
  rw [State.pulledWord, hlow, hhigh, joinBytes_split]

/-- Settles O9, for a byte and for a word. -/
theorem pullReturnsWhatWasPushed : Obligations.PullReturnsWhatWasPushed :=
  fun s v w hs hram => ⟨pulledByte_push8 v hs hram, by simp, pulledWord_push16 w hs hram, by simp⟩

/-- From `s` to `t` there are `count` pushes: S is so much lower, and every address reads as before but those of the cells
at `0x0100 + S - k`, `k < count` (R60, R64). -/
structure Pushes (count : Nat) (s t : State) : Prop where
  params : t.params = s.params
  sp : t.sp = s.sp - BitVec.ofNat 8 count
  frame : ∀ use addr,
    (∀ k, k < count → cellOf s.params addr ≠ cellOf s.params (stackAddress (s.sp - BitVec.ofNat 8 k))) →
      t.readByte use addr = s.readByte use addr

theorem Pushes.refl (s : State) : Pushes 0 s s := ⟨rfl, by simp, fun _ _ _ => rfl⟩

/-- One more push changes one more location, the one below those pushed so far. -/
theorem Pushes.push8 {count : Nat} {s t : State} (h : Pushes count s t) (v : Byte) :
    Pushes (count + 1) s (t.push8 v) where
  params := (State.push8_params t v).trans h.params
  sp := by
    rw [State.push8_sp, h.sp, BitVec.ofNat_add]
    bv_omega
  frame use addr hne := by
    have hlast : cellOf t.params addr ≠ cellOf t.params (stackAddress t.sp) := by
      rw [h.params, h.sp]
      exact hne count (Nat.lt_succ_self count)
    calc (t.push8 v).readByte use addr
        = t.readByte use addr := readByte_push8_other v use hlast
      _ = s.readByte use addr := h.frame use addr fun k hk => hne k (Nat.lt_succ_of_lt hk)

theorem push8_pushes (s : State) (v : Byte) : Pushes 1 s (s.push8 v) := (Pushes.refl s).push8 v

theorem push16_pushes (s : State) (w : Word) : Pushes 2 s (s.push16 w) := (push8_pushes s (highByte w)).push8 (lowByte w)

theorem takeException_pushes (s : State) (b : Bool) (ret vector : Word) :
    Pushes 3 s (s.takeException b ret vector) :=
  have h := (push16_pushes s ret).push8 (s.p.pByte b)
  ⟨h.params, h.sp, h.frame⟩

theorem eq_jsr_of_mnemonic {i : Instr} (h : i.mnemonic = .jsr) : ∃ nn, i = .jsr nn := by
  cases i <;> simp [Instr.mnemonic] at h
  exact ⟨_, rfl⟩

/-- Settles O37: PHA and PHP push once, JSR pushes a word, BRK a word and P; what follows the pushes is no store. -/
theorem pushesChangeOnlyTheirStackBytes : Obligations.PushesChangeOnlyTheirStackBytes := by
  rintro i s t count (⟨rfl | rfl, rfl⟩ | ⟨hjsr, rfl⟩ | ⟨rfl, rfl⟩) h
  · obtain rfl := Host.Outcome.next.inj h
    exact (push8_pushes s s.a).frame
  · obtain rfl := Host.Outcome.next.inj h
    exact (push8_pushes s (s.p.pByte true)).frame
  · obtain ⟨nn, rfl⟩ := eq_jsr_of_mnemonic hjsr
    obtain rfl := Host.Outcome.next.inj h
    exact (push16_pushes s (s.pc + 2)).frame
  · obtain rfl := Host.Outcome.next.inj h
    exact (takeException_pushes s true (s.pc + 2) irqVector).frame

/-- A bit put below a bit vector is the last binary digit of the number. -/
theorem toNat_append_ofBool {n : Nat} (x : BitVec n) (b : Bool) :
    (x ++ BitVec.ofBool b).toNat = 2 * x.toNat + b.toNat := by
  rw [BitVec.toNat_append, BitVec.toNat_ofBool, ← Nat.shiftLeft_add_eq_or_of_lt (by cases b <;> decide), Nat.shiftLeft_eq]
  omega

theorem toNat_pByte (f : Flags) (b : Bool) :
    (f.pByte b).toNat = 128 * f.n.toNat + 64 * f.v.toNat + 32 + 16 * b.toNat + 8 * f.d.toNat + 4 * f.i.toNat
      + 2 * f.z.toNat + f.c.toNat := by
  have hbit5 : (1#1 : BitVec 1) = BitVec.ofBool true := rfl
  simp only [Flags.pByte, hbit5, toNat_append_ofBool, BitVec.toNat_ofBool, Bool.toNat_true]
  omega

theorem flagsOfByte_pByte (f : Flags) (b : Bool) : flagsOfByte (f.pByte b) = f := by
  simp only [flagsOfByte, Flags.pByte, BitVec.getLsbD_append]
  simp

/-- Settles O13: the image as a number, and its inverse. -/
theorem pushedStatusByteHoldsTheFlags : Obligations.PushedStatusByteHoldsTheFlags :=
  fun f b => ⟨toNat_pByte f b, flagsOfByte_pByte f b⟩

end Sys2Proof.Machine
end

section
/-! The encoding (spec 30_encoding.md R80 to R82, R95): the rows of the opcode table against `encode`, and what `decode`
makes of a list of bytes. -/

namespace Sys2Proof

/-- Every instruction has its row in the opcode table: the rows' own lemmas, in the order of the constructors (R95). -/
theorem Laws.OpcodeRow.statement (i : Instr) : Laws.OpcodeRow.Statement i :=
  Instr.casesOn i
    adcImm adcZp adcZpx adcAbs adcAbx adcAby adcInx adcIny sbcImm sbcZp sbcZpx sbcAbs sbcAbx sbcAby sbcInx
    sbcIny cmpImm cmpZp cmpZpx cmpAbs cmpAbx cmpAby cmpInx cmpIny cpxImm cpxZp cpxAbs cpyImm cpyZp cpyAbs andImm
    andZp andZpx andAbs andAbx andAby andInx andIny eorImm eorZp eorZpx eorAbs eorAbx eorAby eorInx eorIny
    oraImm oraZp oraZpx oraAbs oraAbx oraAby oraInx oraIny bitZp bitAbs aslAcc aslZp aslZpx aslAbs aslAbx lsrAcc
    lsrZp lsrZpx lsrAbs lsrAbx rolAcc rolZp rolZpx rolAbs rolAbx rorAcc rorZp rorZpx rorAbs rorAbx bcc bcs beq
    bne bmi bpl bvc bvs clc cld cli clv sec sed sei decZp decZpx decAbs decAbx dex dey incZp incZpx incAbs
    incAbx inx iny jmpAbs jmpInd jsr rts ldaImm ldaZp ldaZpx ldaAbs ldaAbx ldaAby ldaInx ldaIny ldxImm ldxZp
    ldxZpy ldxAbs ldxAby ldyImm ldyZp ldyZpx ldyAbs ldyAbx staZp staZpx staAbs staAbx staAby staInx staIny stxZp
    stxZpy stxAbs styZp styZpx styAbs pha php pla plp tax tay tsx txa txs tya brk rti nop

/-- Of the two bytes after the opcode byte, those that an instruction of the shape has (R80). -/
def Shape.operandBytes (b1 b2 : Byte) : Shape → List Byte
  | .one _ => []
  | .two _ => [b1]
  | .three _ => [b1, b2]

theorem Shape.length_operandBytes (shape : Shape) (b1 b2 : Byte) :
    (shape.operandBytes b1 b2).length + 1 = shape.length := by
  cases shape <;> rfl

theorem storedWord_joinBytes (b1 b2 : Byte) : storedWord (joinBytes b2 b1) = [b1, b2] := by
  simp [storedWord]

/-- A row of the opcode table, whatever the operand bytes: the completed instruction is encoded as the row's byte and
them, and their values have no part in its mnemonic (R80 to R82, R95). -/
theorem encode_and_mnemonic_complete {op : Byte} {shape : Shape} (h : opcodeShape op = some shape) (b1 b2 : Byte) :
    encode (shape.complete b1 b2) = op :: shape.operandBytes b1 b2 ∧
      (shape.complete b1 b2).mnemonic = (shape.complete 0 0).mnemonic := by
  have hop : op = BitVec.ofNat 8 op.toNat := by simp
  rw [hop]
  unfold opcodeShape at h
  split at h
  case h_152 => cases h
  all_goals
    next hbyte =>
      rw [hbyte]
      obtain rfl := Option.some.inj h
      simp [encode, Shape.complete, Shape.operandBytes, Instr.opcode, Instr.mnemonic, Instr.form, Form.bytes,
        MemForm.bytes, storedWord_joinBytes]

theorem encode_complete {op : Byte} {shape : Shape} (h : opcodeShape op = some shape) (b1 b2 : Byte) :
    encode (shape.complete b1 b2) = op :: shape.operandBytes b1 b2 := (encode_and_mnemonic_complete h b1 b2).1

theorem opcode_complete {op : Byte} {shape : Shape} (h : opcodeShape op = some shape) (b1 b2 : Byte) :
    (shape.complete b1 b2).opcode = op := List.head_eq_of_cons_eq (encode_complete h b1 b2)

theorem mnemonic_complete {op : Byte} {shape : Shape} (h : opcodeShape op = some shape) (b1 b2 : Byte) :
    (shape.complete b1 b2).mnemonic = (shape.complete 0 0).mnemonic := (encode_and_mnemonic_complete h b1 b2).2

/-- An instruction is what the row of its opcode byte makes of two bytes (R81, R82). -/
theorem exists_complete_eq {i : Instr} {shape : Shape} (h : opcodeShape i.opcode = some shape) :
    ∃ b1 b2, shape.complete b1 b2 = i := by
  obtain ⟨shape', hrow, -, -, hcomplete⟩ := Laws.OpcodeRow.statement i
  obtain rfl : shape' = shape := Option.some.inj (hrow.symm.trans h)
  exact ⟨_, _, hcomplete⟩

theorem mnemonic_of_opcodeShape {i : Instr} {shape : Shape} (h : opcodeShape i.opcode = some shape) :
    i.mnemonic = (shape.complete 0 0).mnemonic := by
  obtain ⟨b1, b2, hi⟩ := exists_complete_eq h
  calc i.mnemonic = (shape.complete b1 b2).mnemonic := by rw [hi]
    _ = (shape.complete 0 0).mnemonic := mnemonic_complete h b1 b2

theorem length_encode_of_opcodeShape {i : Instr} {shape : Shape} (h : opcodeShape i.opcode = some shape) :
    (encode i).length = shape.length := by
  obtain ⟨b1, b2, hi⟩ := exists_complete_eq h
  calc (encode i).length = (encode (shape.complete b1 b2)).length := by rw [hi]
    _ = (shape.operandBytes b1 b2).length + 1 := by rw [encode_complete h, List.length_cons]
    _ = shape.length := shape.length_operandBytes b1 b2

/-- The decoder completes the shape of the first byte with the bytes that the shape asks for, and keeps the others. -/
theorem decode_cons_operandBytes {op : Byte} {shape : Shape} (h : opcodeShape op = some shape) (b1 b2 : Byte)
    (rest : List Byte) :
    decode (op :: shape.operandBytes b1 b2 ++ rest) = .ok (shape.complete b1 b2, rest) := by
  cases shape <;> simp [decode, h, Shape.operandBytes, Shape.complete]

/-- If the decoder answers, its bytes are a defined opcode byte, the operand bytes of its shape, and those left over. -/
theorem decode_ok_cases {bytes rest : List Byte} {i : Instr} (h : decode bytes = .ok (i, rest)) :
    ∃ op shape b1 b2, opcodeShape op = some shape ∧ bytes = op :: shape.operandBytes b1 b2 ++ rest ∧
      i = shape.complete b1 b2 := by
  unfold decode at h
  split at h
  · cases h
  · next op tail =>
    split at h
    · cases h
    · next i' hop =>
      cases h
      exact ⟨op, _, 0, 0, hop, rfl, rfl⟩
    · next mk n rest' hop =>
      cases h
      exact ⟨op, _, n, 0, hop, rfl, rfl⟩
    · cases h
    · next mk lo hi rest' hop =>
      cases h
      exact ⟨op, _, lo, hi, hop, rfl, rfl⟩
    · cases h

/-- Settles O1: an instruction is a completed row, and the decoder reads a row's bytes back as the completed row. -/
theorem decodeOfEncodeGivesTheInstructionBack : Obligations.DecodeOfEncodeGivesTheInstructionBack := by
  intro i rest
  obtain ⟨shape, hrow, -⟩ := Laws.OpcodeRow.statement i
  obtain ⟨b1, b2, hi⟩ := exists_complete_eq hrow
  calc decode (encode i ++ rest)
      = decode (encode (shape.complete b1 b2) ++ rest) := by rw [hi]
    _ = decode (i.opcode :: shape.operandBytes b1 b2 ++ rest) := by rw [encode_complete hrow]
    _ = .ok (shape.complete b1 b2, rest) := decode_cons_operandBytes hrow b1 b2 rest
    _ = .ok (i, rest) := by rw [hi]

/-- Settles O2: what decodes is a row's byte with operand bytes, and so is the encoding of the completed row. -/
theorem decodedBytesAreTheEncoding : Obligations.DecodedBytesAreTheEncoding := by
  intro bytes rest i h
  obtain ⟨op, shape, b1, b2, hrow, hbytes, rfl⟩ := decode_ok_cases h
  rw [hbytes, encode_complete hrow]

/-- Settles O3: the row of the opcode byte fixes the mnemonic and the length. -/
theorem opcodeFixesOperationAndLength : Obligations.OpcodeFixesOperationAndLength := by
  intro i j hij
  obtain ⟨shape, hi, -⟩ := Laws.OpcodeRow.statement i
  have hj : opcodeShape j.opcode = some shape := hij ▸ hi
  exact ⟨(mnemonic_of_opcodeShape hi).trans (mnemonic_of_opcodeShape hj).symm,
    (length_encode_of_opcodeShape hi).trans (length_encode_of_opcodeShape hj).symm⟩

end Sys2Proof
end

section
/-! Where a step refuses its opcode byte (spec 30_encoding.md R97, 00_scope.md R8). -/

namespace Sys2Proof.Machine

/-- The table has no row for just the bytes that R97 lists: one look at each of the 256 bytes. -/
theorem opcodeShape_eq_none_iff (op : Byte) : opcodeShape op = none ↔ op.toNat ∈ undefinedOpcodes := by
  rw [← Option.isNone_iff_eq_none]
  revert op
  decide

/-- The five bytes of R8 are rows of ROR. -/
theorem opcodeShape_of_mem_rorOpcodes {op : Byte} (h : op.toNat ∈ rorOpcodes) :
    ∃ shape, opcodeShape op = some shape ∧ (shape.complete 0 0).mnemonic = .ror := by
  have hrows : ∀ b : Byte, b.toNat ∈ rorOpcodes →
      (opcodeShape b).map (fun shape => (shape.complete 0 0).mnemonic) = some .ror := by decide
  exact Option.map_eq_some_iff.1 (hrows op h)

theorem fetch_of_opcodeShape_none {s : State} (h : opcodeShape (s.readByte .opcode s.pc) = none) :
    s.fetch = .error (.undefinedOpcode (s.readByte .opcode s.pc)) := by
  simp [State.fetch, h]

/-- A byte without a row is refused at the fetch (R97). -/
theorem runInstruction_of_undefined {s : State} (h : (s.readByte .opcode s.pc).toNat ∈ undefinedOpcodes) :
    runInstruction s = .refused (.undefinedOpcode (s.readByte .opcode s.pc)) := by
  have hfetch := fetch_of_opcodeShape_none ((opcodeShape_eq_none_iff _).2 h)
  simp [runInstruction, hfetch]

/-- An ROR opcode is fetched, and a part without ROR refuses the instruction by that byte (R8). -/
theorem runInstruction_of_ror {s : State} (hror : s.params.hasRor = false)
    (h : (s.readByte .opcode s.pc).toNat ∈ rorOpcodes) :
    runInstruction s = .refused (.undefinedOpcode (s.readByte .opcode s.pc)) := by
  obtain ⟨shape, hrow, hmnemonic⟩ := opcodeShape_of_mem_rorOpcodes h
  have hexec : ∀ b1 b2, exec (shape.complete b1 b2) s = .refused (.undefinedOpcode (s.readByte .opcode s.pc)) :=
    fun b1 b2 => by
      rw [exec_ror_of_not_hasRor ((mnemonic_complete hrow b1 b2).trans hmnemonic) hror, opcode_complete hrow]
  rw [runInstruction_of_fetch (fetch_of_opcodeShape hrow), hexec]
  rfl

/-- Settles O5: the step runs the instruction at PC, which stops at the fetch or, for ROR, in the instruction. -/
theorem undefinedOpcodesAreRefused : Obligations.UndefinedOpcodesAreRefused := by
  refine ⟨opcodeShape_eq_none_iff, rfl, fun s hevent hop => ?_⟩
  have hstep : step s = runInstruction s.atBoundary := by simp [step, hevent]
  rw [hstep]
  obtain hop | ⟨hror, hop⟩ := hop
  · exact runInstruction_of_undefined (s := s.atBoundary) hop
  · exact runInstruction_of_ror (s := s.atBoundary) hror hop

end Sys2Proof.Machine
end

section
/-! The effective address of each form as a number (spec 30_encoding.md R86 to R94). -/

namespace Sys2Proof.Machine

theorem zeroExtend16_eq_ofNat (v : Byte) : zeroExtend16 v = BitVec.ofNat 16 v.toNat := by
  rw [← toNat_zeroExtend16, BitVec.ofNat_toNat, BitVec.setWidth_eq]

theorem zeroPage_eq_ofNat (n : Byte) : zeroPage n = BitVec.ofNat 16 n.toNat := zeroExtend16_eq_ofNat n

/-- A zero-page sum wraps at 256 (R88, R90, R91; log 17). -/
theorem zeroPage_add_eq_ofNat (n index : Byte) :
    zeroPage (n + index) = BitVec.ofNat 16 ((n.toNat + index.toNat) % 256) := by
  rw [zeroPage_eq_ofNat, BitVec.toNat_add]

/-- An indexed address wraps at 65536 (R89, R93, R94; log 17). -/
theorem ofNat_add_zeroExtend16 (k : Nat) (index : Byte) :
    BitVec.ofNat 16 k + zeroExtend16 index = BitVec.ofNat 16 (k + index.toNat) := by
  rw [zeroExtend16_eq_ofNat, BitVec.ofNat_add]

theorem add_zeroExtend16_eq_ofNat (w : Word) (index : Byte) :
    w + zeroExtend16 index = BitVec.ofNat 16 (w.toNat + index.toNat) := by
  rw [← ofNat_add_zeroExtend16, BitVec.ofNat_toNat, BitVec.setWidth_eq]

/-- A pointer inside page 0 is the word at its location and the next, low byte first (R54, R88, R89). -/
theorem zeroPagePointer_inside {ptr : Byte} {s : State} (h : ptr ≠ 0xFF#8) :
    zeroPagePointer ptr s = .ok (BitVec.ofNat 16
      (256 * (s.readByte .pointerHigh (BitVec.ofNat 16 (ptr.toNat + 1))).toNat
        + (s.readByte .pointerLow (BitVec.ofNat 16 ptr.toNat)).toNat)) := by
  have hnext : zeroPage ptr + 1 = BitVec.ofNat 16 (ptr.toNat + 1) := by
    rw [zeroPage_eq_ofNat, BitVec.ofNat_add]
    rfl
  rw [zeroPagePointer, if_neg h, hnext, zeroPage_eq_ofNat, joinBytes_eq_ofNat]

/-- Under `wrap` the pointer at 0xFF takes its high byte from the start of page 0 (R88, R89; log 7). -/
theorem zeroPagePointer_wrap {s : State} (h : s.params.zpPtrCross = .wrap) :
    zeroPagePointer 0xFF#8 s = .ok (BitVec.ofNat 16
      (256 * (s.readByte .pointerHigh 0x0000#16).toNat + (s.readByte .pointerLow 0x00FF#16).toNat)) := by
  simp [zeroPagePointer, h, joinBytes_eq_ofNat]

/-- The form (n),Y adds Y to the word that the pointer holds (R89). -/
theorem effectiveAddress_iny_of_pointer {n : Byte} {s : State} {k : Nat}
    (h : zeroPagePointer n s = .ok (BitVec.ofNat 16 k)) :
    effectiveAddress (.iny n) s = .ok (BitVec.ofNat 16 (k + s.y.toNat)) := by
  simp only [effectiveAddress, h, ofNat_add_zeroExtend16]

/-- The operand byte is read at the effective address (R83). -/
theorem operandByte_of_effectiveAddress {m : MemForm} {s : State} {ea : Word} (h : effectiveAddress m s = .ok ea) :
    operandByte (.mem m) s = .ok (s.readByte .data ea) := by
  simp only [operandByte, h]

theorem add_eq_last_iff (n index : Byte) : n + index = 0xFF#8 ↔ (n.toNat + index.toNat) % 256 = 255 := by
  rw [← BitVec.toNat_inj, BitVec.toNat_add]
  rfl

/-- The form (n,X) is the pointer at n + X, mod 256 (R88). -/
theorem effectiveAddress_inx_inside {n : Byte} {s : State} (h : (n.toNat + s.x.toNat) % 256 ≠ 255) :
    effectiveAddress (.inx n) s = .ok (BitVec.ofNat 16
      (256 * (s.readByte .pointerHigh (BitVec.ofNat 16 ((n.toNat + s.x.toNat) % 256 + 1))).toNat
        + (s.readByte .pointerLow (BitVec.ofNat 16 ((n.toNat + s.x.toNat) % 256))).toNat)) := by
  have hsum : (n + s.x).toNat = (n.toNat + s.x.toNat) % 256 := BitVec.toNat_add n s.x
  have hptr : n + s.x ≠ 0xFF#8 := mt (add_eq_last_iff n s.x).1 h
  rw [effectiveAddress, zeroPagePointer_inside hptr, hsum]

theorem effectiveAddress_inx_last {n : Byte} {s : State} (h : (n.toNat + s.x.toNat) % 256 = 255) :
    effectiveAddress (.inx n) s = zeroPagePointer 0xFF#8 s := by
  rw [effectiveAddress, (add_eq_last_iff n s.x).2 h]

/-- Settles O15, form by form; the two pointer forms by where the pointer lies. -/
theorem operandAndEffectiveAddressOfEveryForm : Obligations.OperandAndEffectiveAddressOfEveryForm := by
  intro s n nn
  refine ⟨rfl, fun m ea => operandByte_of_effectiveAddress, fun m r he => operandByte_error_iff.2 ⟨m, rfl, he⟩,
    ?zp, ?zpx, ?zpy, rfl, ?abx, ?aby, ⟨?inxInside, ?inxRefuse, ?inxWrap⟩, ?inyInside, ?inyRefuse, ?inyWrap⟩
  case zp => exact congrArg Except.ok (zeroPage_eq_ofNat n)
  case zpx => exact congrArg Except.ok (zeroPage_add_eq_ofNat n s.x)
  case zpy => exact congrArg Except.ok (zeroPage_add_eq_ofNat n s.y)
  case abx => exact congrArg Except.ok (add_zeroExtend16_eq_ofNat nn s.x)
  case aby => exact congrArg Except.ok (add_zeroExtend16_eq_ofNat nn s.y)
  case inxInside => exact effectiveAddress_inx_inside
  case inxRefuse => exact fun hptr hz => (effectiveAddress_inx_last hptr).trans (zeroPagePointer_at_end hz)
  case inxWrap => exact fun hptr hz => (effectiveAddress_inx_last hptr).trans (zeroPagePointer_wrap hz)
  case inyInside => exact fun hn => effectiveAddress_iny_of_pointer (zeroPagePointer_inside hn)
  case inyRefuse => exact fun hn hz => effectiveAddress_error_iff.2 ⟨hz, rfl, n, .inr ⟨rfl, hn⟩⟩
  case inyWrap =>
    rintro rfl hz
    exact effectiveAddress_iny_of_pointer (zeroPagePointer_wrap hz)

end Sys2Proof.Machine
end

section
/-! Binary ADC and SBC (spec 40_arithmetic.md R120, R121): the value of each operation as a number, the overflow as a
signed range, and SBC as ADC of the complement. First, what an instruction with a data operand runs. -/

namespace Sys2Proof.Machine

/-- An instruction that computes with "DATA" has a data form (R83). -/
theorem exists_source {i : Instr} (h : i.mnemonic = .adc ∨ i.mnemonic = .sbc ∨ i.mnemonic ∈ readers) :
    ∃ src, i.form = .data src := by
  have ok := hasForm_form i
  generalize i.mnemonic = m at h ok
  obtain rfl | rfl | hm := h
  · exact ok
  · exact ok
  · simp only [readers, List.mem_cons, List.not_mem_nil, or_false] at hm
    obtain rfl | rfl | rfl | rfl | rfl | rfl | rfl | rfl | rfl | rfl := hm <;> exact ok

/-- The operand is read, the computation done, and the pc moved on. -/
theorem arithmeticOn_of_ok {src : Source} {f : Byte → State → Except Refusal State} {s u : State} {d : Byte}
    (hd : operandByte src s = .ok d) (hu : f d s = .ok u) : arithmeticOn src f s = .next (u.advance src.length) := by
  simp only [arithmeticOn, hd, hu]

theorem exec_adc {i : Instr} {s u : State} {src : Source} {d : Byte} (hm : i.mnemonic = .adc)
    (hform : i.form = .data src) (hd : operandByte src s = .ok d) (hu : addOperand d s = .ok u) :
    exec i s = .next (u.advance src.length) := by
  rw [exec_eq_meaningOf, hm, hform]
  exact arithmeticOn_of_ok hd hu

theorem exec_sbc {i : Instr} {s u : State} {src : Source} {d : Byte} (hm : i.mnemonic = .sbc)
    (hform : i.form = .data src) (hd : operandByte src s = .ok d) (hu : subOperand d s = .ok u) :
    exec i s = .next (u.advance src.length) := by
  rw [exec_eq_meaningOf, hm, hform]
  exact arithmeticOn_of_ok hd hu

theorem addOperand_binary {s : State} (h : s.p.d = false) (d : Byte) : addOperand d s = .ok (addBinary d s) := by
  simp [addOperand, h]

theorem subOperand_binary {s : State} (h : s.p.d = false) (d : Byte) : subOperand d s = .ok (subBinary d s) := by
  simp [subOperand, h]

/-- Bit 7 of a byte is its value at 128 and above (R27). -/
theorem msb_ofNat (k : Nat) : (BitVec.ofNat 8 k).msb = decide (128 ≤ k % 256) := by
  rw [BitVec.msb_eq_decide, BitVec.toNat_ofNat]

theorem ofNat_beq_zero (k : Nat) : (BitVec.ofNat 8 k == 0x00#8) = decide (k % 256 = 0) := by
  rw [Bool.eq_iff_iff, beq_iff_eq, decide_eq_true_iff, ← BitVec.toNat_inj, BitVec.toNat_ofNat]
  rfl

theorem msb_ofInt (k : Int) : (BitVec.ofInt 8 k).msb = decide (128 ≤ k % 256) := by
  rw [BitVec.msb_eq_decide, BitVec.toNat_ofInt, decide_eq_decide]
  omega

theorem ofInt_beq_zero (k : Int) : (BitVec.ofInt 8 k == 0x00#8) = decide (k % 256 = 0) := by
  rw [Bool.eq_iff_iff, beq_iff_eq, decide_eq_true_iff, ← BitVec.toNat_inj, BitVec.toNat_ofInt, BitVec.toNat_ofNat]
  omega

/-- V of ADC, the rule on bits 7, says that the signed sum leaves the signed range of a byte (R28, R120). -/
theorem addOverflow_eq_decide (a d : Byte) (c : Bool) : addOverflow a d c =
    decide (a.toInt + d.toInt + c.toNat < -128 ∨ 127 < a.toInt + d.toInt + c.toNat) := by
  have hr : (addResult a d c).toNat = (a.toNat + d.toNat + c.toNat) % 256 := BitVec.toNat_ofNat _ 8
  have ha := a.isLt
  have hd := d.isLt
  have hc := c.toNat_le
  rw [addOverflow, BitVec.msb_and, BitVec.msb_xor, BitVec.msb_xor, BitVec.toInt_eq_msb_cond, BitVec.toInt_eq_msb_cond,
    BitVec.msb_eq_decide (addResult a d c), hr, BitVec.msb_eq_decide a, BitVec.msb_eq_decide d, Bool.eq_iff_iff]
  simp only [Bool.and_eq_true, bne_iff_ne, ne_eq, decide_eq_true_iff, decide_eq_decide]
  omega

theorem addBinary_eq (d : Byte) (s : State) :
    let sum := s.a.toNat + d.toNat + s.p.c.toNat
    let signed := s.a.toInt + d.toInt + s.p.c.toNat
    addBinary d s = { s with
      a := BitVec.ofNat 8 sum
      p := { s.p with
        n := decide (128 ≤ sum % 256)
        v := decide (signed < -128 ∨ 127 < signed)
        z := decide (sum % 256 = 0)
        c := decide (256 ≤ sum) } } := by
  rw [addBinary, Flags.setNZ, addOverflow_eq_decide, addResult, msb_ofNat, ofNat_beq_zero]
  rfl

theorem toInt_complement (d : Byte) : (~~~d).toInt = -d.toInt - 1 := by
  have h := d.isLt
  rw [BitVec.toInt_eq_toNat_cond, BitVec.toInt_eq_toNat_cond, BitVec.toNat_not]
  omega

/-- The difference is the sum with the complement, less 256 (R121). -/
theorem subDifference_eq (a d : Byte) (c : Bool) : subDifference a d c = addSum a (~~~d) c - 256 := by
  have h := d.isLt
  rw [subDifference, addSum, BitVec.toNat_not]
  omega

theorem subResult_eq_addResult (a d : Byte) (c : Bool) : subResult a d c = addResult a (~~~d) c := by
  apply BitVec.eq_of_toNat_eq
  rw [subResult, addResult, BitVec.toNat_ofInt, BitVec.toNat_ofNat, subDifference_eq]
  omega

theorem subCarry_eq_addCarry (a d : Byte) (c : Bool) : subCarry a d c = addCarry a (~~~d) c := by
  rw [subCarry, addCarry, subDifference_eq, decide_eq_decide]
  omega

/-- The two rules of V agree bit by bit: where bit 7 of A and of the result differ, that of the result is that of DATA's
complement just when it is not that of DATA (R120, R121). -/
theorem subOverflow_eq_addOverflow (a d : Byte) (c : Bool) : subOverflow a d c = addOverflow a (~~~d) c := by
  have hnot : (~~~d).msb = !d.msb := by simp [BitVec.msb_not]
  rw [subOverflow, addOverflow, subResult_eq_addResult]
  simp only [BitVec.msb_and, BitVec.msb_xor, hnot]
  cases a.msb <;> cases d.msb <;> cases (addResult a (~~~d) c).msb <;> rfl

/-- Settles O18, by the result, the carry and the overflow. -/
theorem sbcIsAdcOfTheComplement : Obligations.SbcIsAdcOfTheComplement := by
  intro s d
  simp only [subBinary, addBinary, subResult_eq_addResult, subCarry_eq_addCarry, subOverflow_eq_addOverflow]

/-- V of SBC says that the signed difference leaves the signed range of a byte (R28, R121). -/
theorem subOverflow_eq_decide (a d : Byte) (c : Bool) : subOverflow a d c =
    decide (a.toInt - d.toInt - (1 - c.toNat) < -128 ∨ 127 < a.toInt - d.toInt - (1 - c.toNat)) := by
  have hsigned : a.toInt + (~~~d).toInt + c.toNat = a.toInt - d.toInt - (1 - c.toNat) := by
    rw [toInt_complement]
    omega
  rw [subOverflow_eq_addOverflow, addOverflow_eq_decide, hsigned]

theorem subBinary_eq (d : Byte) (s : State) :
    let diff : Int := s.a.toNat - d.toNat - (1 - s.p.c.toNat)
    let signed := s.a.toInt - d.toInt - (1 - s.p.c.toNat)
    subBinary d s = { s with
      a := BitVec.ofInt 8 diff
      p := { s.p with
        n := decide (128 ≤ diff % 256)
        v := decide (signed < -128 ∨ 127 < signed)
        z := decide (diff % 256 = 0)
        c := decide (0 ≤ diff) } } := by
  rw [subBinary, Flags.setNZ, subOverflow_eq_decide, subResult, msb_ofInt, ofInt_beq_zero]
  rfl

/-- Settles O16: `addBinary_eq`, then the pc moves on. -/
theorem binaryAdcResult : Obligations.BinaryAdcResult := by
  intro i s hm
  obtain ⟨src, hform⟩ := exists_source (.inl hm)
  refine ⟨src, hform, fun d hd hbin => ?_⟩
  rw [exec_adc hm hform hd (addOperand_binary hbin d), addBinary_eq]
  rfl

/-- Settles O17: `subBinary_eq`, then the pc moves on. -/
theorem binarySbcResult : Obligations.BinarySbcResult := by
  intro i s hm
  obtain ⟨src, hform⟩ := exists_source (.inr (.inl hm))
  refine ⟨src, hform, fun d hd hbin => ?_⟩
  rw [exec_sbc hm hform hd (subOperand_binary hbin d), subBinary_eq]
  rfl

end Sys2Proof.Machine
end

section
/-! Decimal ADC and SBC (spec 40_arithmetic.md R122): the digits, the result and carry of BCD operands, and the
refusals. -/

namespace Sys2Proof.Machine

theorem toNat_bcdOf {k : Nat} (h : k < 100) : (bcdOf k).toNat = 16 * (k / 10) + k % 10 := by
  rw [bcdOf, BitVec.toNat_ofNat]
  omega

theorem isBcd_iff (v : Byte) : isBcd v = true ↔ v.toNat / 16 ≤ 9 ∧ v.toNat % 16 ≤ 9 := by simp [isBcd]

theorem isBcd_bcdOf {k : Nat} (h : k < 100) : isBcd (bcdOf k) = true := by
  rw [isBcd_iff, toNat_bcdOf h]
  omega

theorem decimalOf_bcdOf {k : Nat} (h : k < 100) : decimalOf (bcdOf k) = k := by
  rw [decimalOf, toNat_bcdOf h]
  omega

theorem decimalOf_lt {v : Byte} (h : isBcd v = true) : decimalOf v < 100 := by
  obtain ⟨hhigh, hlow⟩ := (isBcd_iff v).1 h
  rw [decimalOf]
  omega

/-- The difference of BCD operands lies from -100 to 99, so that one borrow of 100 brings it into range (R122). -/
theorem decimalSubResult_eq {a d : Byte} (ha : isBcd a = true) (hd : isBcd d = true) (c : Bool) :
    decimalSubResult a d c = bcdOf (decimalDifference a d c % 100).toNat := by
  have hlow : -100 ≤ decimalDifference a d c := by
    have h := decimalOf_lt hd
    rw [decimalDifference]
    omega
  have hhigh : decimalDifference a d c < 100 := by
    have h := decimalOf_lt ha
    have hc := c.toNat_le
    rw [decimalDifference]
    omega
  simp only [decimalSubResult]
  split
  · next hneg =>
    have hmod : decimalDifference a d c % 100 = decimalDifference a d c + 100 := by omega
    rw [hmod]
  · next hpos => rw [Int.emod_eq_of_lt (by omega) hhigh]

/-- BCD operands have a decimal result wherever decimal arithmetic is not refused outright (R122). -/
theorem decimalOutcome_of_isBcd {s : State} {d : Byte} (hmode : s.params.decimalMode ≠ .refuse) (ha : isBcd s.a = true)
    (hd : isBcd d = true) (value : Byte) (carry : Bool) :
    decimalOutcome d value carry s = .ok (s.withDecimal value carry) := by
  cases hm : s.params.decimalMode with
  | refuse => exact absurd hm hmode
  | bcdValidOnly => simp [decimalOutcome, hm, ha, hd]

/-- Settles O19: the free values of log 10 are the N, V and Z that exist. -/
theorem decimalResultOfBcdOperands : Obligations.DecimalResultOfBcdOperands := by
  refine ⟨fun v => ⟨rfl, rfl⟩, fun k hk => ⟨isBcd_bcdOf hk, decimalOf_bcdOf hk, toNat_bcdOf hk⟩, fun i s hm => ?_⟩
  obtain ⟨src, hform⟩ := exists_source (hm.imp_right .inl)
  refine ⟨src, hform, fun d hd hdec hmode hbcdA hbcdD => ?_⟩
  have outcome := decimalOutcome_of_isBcd hmode hbcdA hbcdD
  refine ⟨Config.freeBit s.turn .decimalN, Config.freeBit s.turn .decimalV, Config.freeBit s.turn .decimalZ,
    fun hadc => ?_, fun hsbc => ?_⟩
  · have hu : addOperand d s = .ok (s.withDecimal (decimalAddResult s.a d s.p.c) (decimalAddCarry s.a d s.p.c)) := by
      rw [addOperand, if_pos hdec, outcome]
    exact exec_adc hadc hform hd hu
  · have hu : subOperand d s = .ok
        (s.withDecimal (bcdOf (decimalDifference s.a d s.p.c % 100).toNat) (decimalSubCarry s.a d s.p.c)) := by
      rw [subOperand, if_pos hdec, outcome, decimalSubResult_eq hbcdA hbcdD]
    exact exec_sbc hsbc hform hd hu

/-- Settles O20: both refusals are among those that `DecimalStops` lists. -/
theorem decimalArithmeticOutsideBcd : Obligations.DecimalArithmeticOutsideBcd := by
  intro i s hm
  obtain ⟨src, hform⟩ := exists_source (hm.imp_right .inl)
  refine ⟨src, hform, fun d hd hdec => ⟨fun hmode => ?_, fun hmode hbcd => ?_⟩⟩
  · exact exec_of_decimalStops hm hform hd ⟨hdec, .inl ⟨hmode, rfl⟩⟩
  · exact exec_of_decimalStops hm hform hd ⟨hdec, .inr ⟨hmode, hbcd, rfl⟩⟩

end Sys2Proof.Machine
end

section
/-! CMP, CPX and CPY (spec 40_arithmetic.md R123 to R125): the flags of a comparison as an unsigned order, and the
branches that follow one. -/

namespace Sys2Proof.Machine

theorem withOperand_of_ok {src : Source} {s : State} {d : Byte} (hd : operandByte src s = .ok d)
    (f : Byte → State → State) : withOperand src f s = .next ((f d s).advance src.length) := by
  simp only [withOperand, hd]

/-- N of a comparison is bit 7 of the difference mod 256 (R123). -/
theorem msb_sub (r d : Byte) : (r - d).msb = decide (128 ≤ ((r.toNat : Int) - d.toNat) % 256) := by
  have hr := r.isLt
  have hd := d.isLt
  rw [BitVec.msb_eq_decide, BitVec.toNat_sub, decide_eq_decide]
  omega

theorem compare_eq (r d : Byte) (f : Flags) : f.compare r d = { f with
    n := decide (128 ≤ ((r.toNat : Int) - d.toNat) % 256)
    z := decide (r = d)
    c := decide (d.toNat ≤ r.toNat) } := by
  rw [Flags.compare, msb_sub]
  rfl

/-- CMP compares A, CPX X and CPY Y (R123 to R125). -/
def Compares (s : State) (m : Mnemonic) (reg : Byte) : Prop :=
  (m = .cmp ∧ reg = s.a) ∨ (m = .cpx ∧ reg = s.x) ∨ (m = .cpy ∧ reg = s.y)

theorem Compares.mem_readers {s : State} {m : Mnemonic} {reg : Byte} (h : Compares s m reg) : m ∈ readers := by
  obtain ⟨rfl, -⟩ | ⟨rfl, -⟩ | ⟨rfl, -⟩ := h <;> decide

theorem Compares.exec_eq {i : Instr} {s : State} {reg : Byte} (h : Compares s i.mnemonic reg) {src : Source}
    (hform : i.form = .data src) : exec i s = compareWith reg src s := by
  rw [exec_eq_meaningOf, hform]
  obtain ⟨hm, rfl⟩ | ⟨hm, rfl⟩ | ⟨hm, rfl⟩ := h <;> rw [hm] <;> rfl

/-- Settles O21: the register that the mnemonic names, then `compare_eq`. -/
theorem compareResult : Obligations.CompareResult := by
  intro i s reg hreg
  have hcmp : Compares s i.mnemonic reg := hreg
  obtain ⟨src, hform⟩ := exists_source (.inr (.inr hcmp.mem_readers))
  refine ⟨src, hform, fun d hd => ?_⟩
  rw [hcmp.exec_eq hform, compareWith, withOperand_of_ok hd, compare_eq]
  rfl

/-- A branch on a flag that decides a proposition is taken exactly where it holds (R150). -/
theorem branchIf_of_iff {cond : Bool} {P : Prop} [Decidable P] (h : cond = true ↔ P) (n : Byte) (s : State) :
    branchIf cond n s = .next { s with pc := if P then branchTarget n s else s.pc + 2 } := by
  rw [branchIf, if_congr h rfl rfl]

/-- Settles O22: each branch by the flag that it tests, as a comparison of A with n. -/
theorem compareThenBranchDecidesUnsignedOrder : Obligations.CompareThenBranchDecidesUnsignedOrder := by
  intro s n k
  have hc : (s.p.compare s.a n).c = true ↔ n.toNat ≤ s.a.toNat := decide_eq_true_iff
  have hz : (s.p.compare s.a n).z = true ↔ s.a = n := beq_iff_eq
  have hnc : (!(s.p.compare s.a n).c) = true ↔ s.a.toNat < n.toNat := by
    rw [Bool.not_eq_true', ← Bool.not_eq_true, hc, not_le]
  have hnz : (!(s.p.compare s.a n).z) = true ↔ s.a ≠ n := by
    rw [Bool.not_eq_true', ← Bool.not_eq_true, hz]
  refine ⟨{ s with p := s.p.compare s.a n }.advance 2, rfl, ?bcc, ?beq, ?bcs, ?bne, ?gt, ?le⟩
  case bcc => exact branchIf_of_iff hnc k _
  case beq => exact branchIf_of_iff hz k _
  case bcs => exact branchIf_of_iff hc k _
  case bne => exact branchIf_of_iff hnz k _
  case gt =>
    rw [State.advance_p, ← Bool.not_eq_true, hc, hz, ← BitVec.toNat_inj]
    omega
  case le =>
    rw [State.advance_p, ← Bool.not_eq_true, hc, hz, ← BitVec.toNat_inj]
    omega

end Sys2Proof.Machine
end

section
/-! AND, EOR, ORA and BIT (spec 41_logic.md R130 to R133): the operation on bytes is the one on each bit, and the flags
are tests of single bits and of zero. -/

namespace Sys2Proof.Machine

/-- The mnemonics that combine A with "DATA", each with what it does to a bit and to a byte (R130 to R132). -/
inductive Combines : Mnemonic → (Bool → Bool → Bool) → (Byte → Byte → Byte) → Prop where
  | and : Combines .and and (· &&& ·)
  | eor : Combines .eor xor (· ^^^ ·)
  | ora : Combines .ora or (· ||| ·)

theorem exists_combines {m : Mnemonic} {op : Bool → Bool → Bool}
    (h : (m = .and ∧ op = and) ∨ (m = .eor ∧ op = xor) ∨ (m = .ora ∧ op = or)) : ∃ combine, Combines m op combine := by
  obtain ⟨rfl, rfl⟩ | ⟨rfl, rfl⟩ | ⟨rfl, rfl⟩ := h
  · exact ⟨_, .and⟩
  · exact ⟨_, .eor⟩
  · exact ⟨_, .ora⟩

section
variable {m : Mnemonic} {op : Bool → Bool → Bool} {combine : Byte → Byte → Byte}

theorem Combines.mem_readers (h : Combines m op combine) : m ∈ readers := by
  cases h <;> decide

theorem Combines.getLsbD_eq (h : Combines m op combine) (a d : Byte) (k : Nat) :
    (combine a d).getLsbD k = op (a.getLsbD k) (d.getLsbD k) := by
  cases h with
  | and => exact BitVec.getLsbD_and
  | eor => exact BitVec.getLsbD_xor
  | ora => exact BitVec.getLsbD_or

theorem Combines.meaningOf_eq (h : Combines m op combine) (src : Source) (opcode : Byte) (s : State) :
    meaningOf m (.data src) opcode s = logicOn combine src s := by
  cases h <;> rfl

end

/-- N is bit 7 of the byte and Z says that it is 0 (R30). -/
theorem setNZ_eq (v : Byte) (f : Flags) : f.setNZ v = { f with n := v.getLsbD 7, z := decide (v = 0) } := by
  rw [Flags.setNZ, BitVec.msb_eq_getLsbD_last]
  rfl

/-- Settles O23: the byte that `Combines` gives has the bits asked for, and its flags are `setNZ_eq`. -/
theorem logicResult : Obligations.LogicResult := by
  intro i s op hop
  obtain ⟨combine, hcombine⟩ := exists_combines hop
  obtain ⟨src, hform⟩ := exists_source (.inr (.inr hcombine.mem_readers))
  refine ⟨src, hform, fun d hd => ⟨combine s.a d, fun k _ => hcombine.getLsbD_eq s.a d k, ?_⟩⟩
  rw [exec_eq_meaningOf, hform, hcombine.meaningOf_eq, logicOn, withOperand_of_ok hd, setNZ_eq]
  rfl

/-- Settles O24: the flags are the model's own tests, Z written as a proposition. -/
theorem bitResult : Obligations.BitResult := by
  intro i s hm
  have hreader : i.mnemonic ∈ readers := by
    rw [hm]
    decide
  obtain ⟨src, hform⟩ := exists_source (.inr (.inr hreader))
  refine ⟨src, hform, fun d hd => ?_⟩
  have hrun : exec i s = bitOn src s := by
    rw [exec_eq_meaningOf, hm, hform]
    rfl
  rw [hrun, bitOn, withOperand_of_ok hd]
  rfl

end Sys2Proof.Machine
end

section
/-! ASL, LSR, ROL and ROR (spec 42_shift_rotate.md R140 to R144): the result as a number, and the rotations as a turn of
the ring of nine bits that the byte and C make. -/

namespace Sys2Proof.Machine

/-- N and Z of a byte given as a number (R30). -/
theorem setNZ_ofNat {k : Nat} (hk : k < 256) (f : Flags) :
    f.setNZ (BitVec.ofNat 8 k) = { f with n := decide (128 ≤ k), z := decide (k = 0) } := by
  rw [Flags.setNZ, msb_ofNat, ofNat_beq_zero, Nat.mod_eq_of_lt hk]

theorem toNat_setWidth_ofBool (c : Bool) : ((BitVec.ofBool c).setWidth 8).toNat = c.toNat := by
  cases c <;> rfl

/-- A shift to the left drops bit 7 (R140). -/
theorem shiftLeft_one_eq (v : Byte) : v <<< 1 = BitVec.ofNat 8 (2 * v.toNat % 256) := by
  apply BitVec.eq_of_toNat_eq
  rw [BitVec.toNat_shiftLeft, BitVec.toNat_ofNat, Nat.shiftLeft_eq]
  omega

/-- A shift to the right drops bit 0 (R141). -/
theorem shiftRight_one_eq (v : Byte) : v >>> 1 = BitVec.ofNat 8 (v.toNat / 2) := by
  have h := v.isLt
  apply BitVec.eq_of_toNat_eq
  rw [BitVec.toNat_ushiftRight, BitVec.toNat_ofNat, Nat.shiftRight_eq_div_pow]
  omega

/-- The shift leaves bit 0 free for the old C, so that "or" adds it (R142). -/
theorem shiftLeft_or_carry_eq (v : Byte) (c : Bool) :
    v <<< 1 ||| (BitVec.ofBool c).setWidth 8 = BitVec.ofNat 8 (2 * v.toNat % 256 + c.toNat) := by
  have hc := c.toNat_le
  have hor : 2 ^ 1 * (v.toNat % 128) + c.toNat = 2 ^ 1 * (v.toNat % 128) ||| c.toNat :=
    Nat.two_pow_add_eq_or_of_lt (by omega) _
  have hleft : (v <<< 1).toNat = 2 ^ 1 * (v.toNat % 128) := by
    rw [shiftLeft_one_eq, BitVec.toNat_ofNat]
    omega
  apply BitVec.eq_of_toNat_eq
  rw [BitVec.toNat_or, hleft, toNat_setWidth_ofBool, ← hor, BitVec.toNat_ofNat]
  omega

/-- The shift leaves bit 7 free for the old C, so that "or" adds it (R143). -/
theorem shiftRight_or_carry_eq (v : Byte) (c : Bool) :
    v >>> 1 ||| (BitVec.ofBool c).setWidth 8 <<< 7 = BitVec.ofNat 8 (v.toNat / 2 + 128 * c.toNat) := by
  have hv := v.isLt
  have hc := c.toNat_le
  have hor : 2 ^ 7 * c.toNat + v.toNat / 2 = 2 ^ 7 * c.toNat ||| v.toNat / 2 :=
    Nat.two_pow_add_eq_or_of_lt (by omega) _
  have hright : (v >>> 1).toNat = v.toNat / 2 := by
    rw [shiftRight_one_eq, BitVec.toNat_ofNat]
    omega
  have hcarry : ((BitVec.ofBool c).setWidth 8 <<< 7).toNat = 2 ^ 7 * c.toNat := by
    rw [BitVec.toNat_shiftLeft, toNat_setWidth_ofBool, Nat.shiftLeft_eq]
    omega
  apply BitVec.eq_of_toNat_eq
  rw [BitVec.toNat_or, hright, hcarry, Nat.or_comm, ← hor, BitVec.toNat_ofNat]
  omega

theorem getLsbD_seven_eq_decide (v : Byte) : v.getLsbD 7 = decide (128 ≤ v.toNat) :=
  BitVec.msb_eq_decide v

theorem getLsbD_zero_eq_decide (v : Byte) : v.getLsbD 0 = decide (v.toNat % 2 = 1) := by
  rw [BitVec.getLsbD, Nat.testBit_zero]

theorem shiftedValue_lt (m : Mnemonic) (v : Byte) (c : Bool) : shiftedValue m v c < 256 := by
  have hv := v.isLt
  have hc := c.toNat_le
  unfold shiftedValue
  split <;> omega

/-- The computation of a shift or rotate (R140 to R143). -/
inductive Shifts : Mnemonic → (Byte → Flags → Byte × Flags) → Prop where
  | asl : Shifts .asl aslResult
  | lsr : Shifts .lsr lsrResult
  | rol : Shifts .rol rolResult
  | ror : Shifts .ror rorResult

theorem exists_shifts {m : Mnemonic} (h : m = .asl ∨ m = .lsr ∨ m = .rol ∨ m = .ror) : ∃ op, Shifts m op := by
  obtain rfl | rfl | rfl | rfl := h
  exacts [⟨_, .asl⟩, ⟨_, .lsr⟩, ⟨_, .rol⟩, ⟨_, .ror⟩]

theorem ifPresent_present {present : Bool} {op : Byte} {o : Host.Outcome State Fault Refusal} (h : present = true) :
    ifPresent present op o = o := by
  simp [ifPresent, h]

/-- A part that has the instruction has ROR where it is one (R8). -/
theorem hasRor_of_wellFormed {i : Instr} {p : Params} (h : i.wellFormed p = true) (hm : i.mnemonic = .ror) :
    p.hasRor = true := by
  simpa [Instr.wellFormed, hm] using h

section
variable {m : Mnemonic} {op : Byte → Flags → Byte × Flags}

/-- The byte of a shift or rotate as a number. -/
theorem Shifts.fst_eq (h : Shifts m op) (v : Byte) (f : Flags) :
    (op v f).1 = BitVec.ofNat 8 (shiftedValue m v f.c) := by
  cases h with
  | asl => exact shiftLeft_one_eq v
  | lsr => exact shiftRight_one_eq v
  | rol => exact shiftLeft_or_carry_eq v f.c
  | ror => exact shiftRight_or_carry_eq v f.c

/-- The flags are C from the bit shifted out, then N and Z from the result; N of LSR is 0 because bit 7 takes 0 (R141). -/
theorem Shifts.snd_eq_setNZ (h : Shifts m op) (v : Byte) (f : Flags) :
    (op v f).2 = { f with c := shiftedOutBit m v }.setNZ (op v f).1 := by
  cases h with
  | asl | rol =>
    rw [shiftedOutBit, ← getLsbD_seven_eq_decide]
    rfl
  | ror =>
    rw [shiftedOutBit, ← getLsbD_zero_eq_decide]
    rfl
  | lsr =>
    have hmsb : (v >>> 1).msb = false := by simp
    rw [shiftedOutBit, ← getLsbD_zero_eq_decide, Flags.setNZ]
    simp only [lsrResult, hmsb]

/-- The flags of a shift or rotate, from the result as a number. -/
theorem Shifts.snd_eq (h : Shifts m op) (v : Byte) (f : Flags) : (op v f).2 = { f with
    n := decide (128 ≤ shiftedValue m v f.c)
    z := decide (shiftedValue m v f.c = 0)
    c := shiftedOutBit m v } := by
  rw [h.snd_eq_setNZ, h.fst_eq, setNZ_ofNat (shiftedValue_lt m v f.c)]

theorem Shifts.meaningOf_acc (h : Shifts m op) {s : State} (hror : m = .ror → s.params.hasRor = true)
    (opcode : Byte) : meaningOf m .acc opcode s = modifyA op s := by
  cases h with
  | asl | lsr | rol => rfl
  | ror => exact ifPresent_present (hror rfl)

theorem Shifts.meaningOf_mem (h : Shifts m op) {s : State} (hror : m = .ror → s.params.hasRor = true)
    (mf : MemForm) (opcode : Byte) : meaningOf m (.data (.mem mf)) opcode s = modifyAt mf op s := by
  cases h with
  | asl | lsr | rol => rfl
  | ror => exact ifPresent_present (hror rfl)

theorem Shifts.form_cases {i : Instr} (h : Shifts i.mnemonic op) :
    i.form = .acc ∨ ∃ mf, i.form = .data (.mem mf) := by
  have ok := hasForm_form i
  generalize i.mnemonic = m at h ok
  cases h <;> exact ok

end

/-- The byte at the effective address is read, changed and written back, and the pc moved on (R144). -/
theorem modifyAt_of_ok {m : MemForm} {s : State} {ea : Word} (he : effectiveAddress m s = .ok ea)
    (f : Byte → Flags → Byte × Flags) :
    modifyAt m f s = .next ({ s.writeByte ea (f (s.readByte .data ea) s.p).1 with
      p := (f (s.readByte .data ea) s.p).2 }.advance (Source.mem m).length) := by
  simp only [modifyAt, he]

/-- Settles O25: the form says where the operand is, `Shifts.fst_eq` and `Shifts.snd_eq` what becomes of it. -/
theorem shiftAndRotateResult : Obligations.ShiftAndRotateResult := by
  intro i s hm hwf
  obtain ⟨op, hop⟩ := exists_shifts hm
  have hror := hasRor_of_wellFormed hwf
  obtain hform | ⟨mf, hform⟩ := hop.form_cases
  · refine .inl ⟨hform, ?_⟩
    rw [exec_eq_meaningOf, hform, hop.meaningOf_acc hror, modifyA, hop.fst_eq, hop.snd_eq]
    rfl
  · refine .inr ⟨mf, hform, fun ea he => ?_⟩
    rw [exec_eq_meaningOf, hform, hop.meaningOf_mem hror, modifyAt_of_ok he, hop.fst_eq, hop.snd_eq, State.advance,
      State.writeByte_pc]
    rfl

/-- The nine bits that a rotate turns: those of the byte, and C above them (R142, R143). -/
def nineBit (r : Byte × Flags) (k : Nat) : Bool := if k < 8 then r.1.getLsbD k else r.2.c

/-- Each of the nine bits takes the value of the one `d` places above it, around the ring. -/
def TurnsNineBits (d : Nat) (op : Byte × Flags → Byte × Flags) : Prop :=
  ∀ r k, k < 9 → nineBit (op r) k = nineBit r ((k + d) % 9)

/-- One place to the left is eight places to the right: bit 0 takes C, and C takes bit 7. -/
theorem rolResult_turnsNineBits : TurnsNineBits 8 fun r => rolResult r.1 r.2 := by
  intro r k hk
  interval_cases k <;> simp [nineBit, rolResult]

/-- Bit 7 takes C, and C takes bit 0. -/
theorem rorResult_turnsNineBits : TurnsNineBits 1 fun r => rorResult r.1 r.2 := by
  intro r k hk
  interval_cases k <;> simp [nineBit, rorResult]

theorem TurnsNineBits.iterate {d : Nat} {op : Byte × Flags → Byte × Flags} (h : TurnsNineBits d op) (n : Nat) :
    TurnsNineBits (n * d) op^[n] := by
  induction n with
  | zero =>
    intro r k hk
    simp [Nat.mod_eq_of_lt hk]
  | succ n ih =>
    intro r k hk
    have hplace : ((k + d) % 9 + n * d) % 9 = (k + (n + 1) * d) % 9 := by
      rw [Nat.mod_add_mod, Nat.succ_mul]
      congr 1
      omega
    rw [Function.iterate_succ_apply', h _ k hk, ih r _ (Nat.mod_lt _ (by decide)), hplace]

/-- Nine turns by any number of places go around the ring. -/
theorem TurnsNineBits.iterate_nine {d : Nat} {op : Byte × Flags → Byte × Flags} (h : TurnsNineBits d op)
    (r : Byte × Flags) : (op^[9] r).1 = r.1 ∧ (op^[9] r).2.c = r.2.c := by
  have hsame : ∀ k, k < 9 → nineBit (op^[9] r) k = nineBit r k := fun k hk => by
    rw [h.iterate 9 r k hk, Nat.add_mul_mod_self_left, Nat.mod_eq_of_lt hk]
  constructor
  · refine BitVec.eq_of_getLsbD_eq fun k hk => ?_
    simpa [nineBit, hk] using hsame k (by omega)
  · exact hsame 8 (by decide)

/-- Settles O26: each rotation turns the ring of nine bits. -/
theorem nineRotationsRestoreByteAndCarry : Obligations.NineRotationsRestoreByteAndCarry := by
  intro v f
  obtain ⟨hrol, hrolC⟩ := rolResult_turnsNineBits.iterate_nine (v, f)
  obtain ⟨hror, hrorC⟩ := rorResult_turnsNineBits.iterate_nine (v, f)
  exact ⟨hrol, hrolC, hror, hrorC⟩

end Sys2Proof.Machine
end

section
/-! The conditional branches (spec 43_branch.md R150 to R158): the words that they put in the pc as integers mod 65536. -/

namespace Sys2Proof.Machine

theorem pc_add_two_eq_ofInt (s : State) : s.pc + 2 = BitVec.ofInt 16 (s.pc.toNat + 2) := by
  rw [BitVec.ofInt_add, BitVec.ofInt_natCast, BitVec.ofNat_toNat, BitVec.setWidth_eq]
  rfl

/-- Sign extension keeps the integer that a byte stands for (R105), so the target is a sum of integers. -/
theorem branchTarget_eq_ofInt (n : Byte) (s : State) :
    branchTarget n s = BitVec.ofInt 16 (s.pc.toNat + 2 + n.toInt) := by
  rw [branchTarget, pc_add_two_eq_ofInt, BitVec.ofInt_add _ n.toInt, ← toInt_signExtend16, BitVec.ofInt_toInt]

/-- The common branch rule (R150) as one signed sum, whose displacement counts as 0 where the branch is not taken. -/
theorem branchIf_eq_ofInt (cond : Bool) (n : Byte) (s : State) :
    branchIf cond n s = .next { s with
      pc := BitVec.ofInt 16 (s.pc.toNat + 2 + if cond then n.toInt else 0) } := by
  cases cond with
  | true => rw [branchIf, if_pos rfl, if_pos rfl, branchTarget_eq_ofInt]
  | false => rw [branchIf, if_neg Bool.false_ne_true, if_neg Bool.false_ne_true, pc_add_two_eq_ofInt, add_zero]

/-- Settles O27: each mnemonic is the common rule on its own flag (R151 to R158). -/
theorem branchesGoBySignedDisplacement : Obligations.BranchesGoBySignedDisplacement := by
  intro s n
  refine ⟨?bcc, ?bcs, ?beq, ?bne, ?bmi, ?bpl, ?bvc, ?bvs⟩
  case bcc => exact branchIf_eq_ofInt (!s.p.c) n s
  case bcs => exact branchIf_eq_ofInt s.p.c n s
  case beq => exact branchIf_eq_ofInt s.p.z n s
  case bne => exact branchIf_eq_ofInt (!s.p.z) n s
  case bmi => exact branchIf_eq_ofInt s.p.n n s
  case bpl => exact branchIf_eq_ofInt (!s.p.n) n s
  case bvc => exact branchIf_eq_ofInt (!s.p.v) n s
  case bvs => exact branchIf_eq_ofInt s.p.v n s

end Sys2Proof.Machine
end

section
/-! The instructions without operand (spec 30_encoding.md R84) and, of them, the flag instructions (spec 44_flag.md R160 to
R166). -/

namespace Sys2Proof.Machine

/-- The opcode byte of an implied instruction is the whole of it (R84). -/
theorem encode_of_form_imp {i : Instr} (h : i.form = .imp) : encode i = [i.opcode] := by
  rw [encode, h, Form.bytes]

theorem cyclesOf_of_form_imp {i : Instr} {k : Nat} (hform : i.form = .imp) (hclass : timingClass i.mnemonic = .other k)
    (s : State) : cyclesOf i s = k := by
  simp only [cyclesOf, hform, hclass]

/-- The encoding, the time and the next state of an implied instruction whose meaning is `implied f`. -/
theorem implied_complete {i : Instr} {k : Nat} {f : State → State} {s : State} (hform : i.form = .imp)
    (hclass : timingClass i.mnemonic = .other k) (hexec : exec i s = implied f s) :
    encode i = [i.opcode] ∧ cyclesOf i s = k ∧ exec i s = .next { f s with pc := (f s).pc + 1 } :=
  ⟨encode_of_form_imp hform, cyclesOf_of_form_imp hform hclass s, hexec⟩

/-- `implied_complete` for a meaning that changes P alone; the flag instructions differ in `set` only (R160 to R166). -/
theorem implied_flags_complete {i : Instr} {k : Nat} {s : State} (set : Flags → Flags) (hform : i.form = .imp)
    (hclass : timingClass i.mnemonic = .other k) (hexec : exec i s = implied (fun s => { s with p := set s.p }) s) :
    encode i = [i.opcode] ∧ cyclesOf i s = k ∧ exec i s = .next { s with p := set s.p, pc := s.pc + 1 } :=
  implied_complete hform hclass hexec

/-- Settles O28: each mnemonic is implied, of two cycles, and sets its own flag (R160 to R166). -/
theorem flagInstructionsWriteOneFlag : Obligations.FlagInstructionsWriteOneFlag := by
  intro s
  refine ⟨?clc, ?cld, ?cli, ?clv, ?sec, ?sed, ?sei⟩
  case clc => exact implied_flags_complete (fun f => { f with c := false }) rfl rfl rfl
  case cld => exact implied_flags_complete (fun f => { f with d := false }) rfl rfl rfl
  case cli => exact implied_flags_complete (fun f => { f with i := false }) rfl rfl rfl
  case clv => exact implied_flags_complete (fun f => { f with v := false }) rfl rfl rfl
  case sec => exact implied_flags_complete (fun f => { f with c := true }) rfl rfl rfl
  case sed => exact implied_flags_complete (fun f => { f with d := true }) rfl rfl rfl
  case sei => exact implied_flags_complete (fun f => { f with i := true }) rfl rfl rfl

end Sys2Proof.Machine
end

section
/-! INC and DEC of a byte in memory, and INX, INY, DEX and DEY (spec 45_incdec.md R170 to R175): the byte plus or minus one
as a number, with N and Z from it. -/

namespace Sys2Proof.Machine

/-- N and Z of a byte given as an integer (R30). -/
theorem setNZ_ofInt_emod (k : Int) (f : Flags) :
    f.setNZ (BitVec.ofInt 8 (k % 256)) = { f with n := decide (128 ≤ k % 256), z := decide (k % 256 = 0) } := by
  rw [Flags.setNZ, msb_ofInt, ofInt_beq_zero, Int.emod_emod]

theorem add_ofInt_eq (v : Byte) (delta : Int) :
    v + BitVec.ofInt 8 delta = BitVec.ofInt 8 ((v.toNat + delta) % 256) := by
  apply BitVec.eq_of_toNat_eq
  rw [BitVec.toNat_add, BitVec.toNat_ofInt, BitVec.toNat_ofInt]
  omega

/-- The computation of INC or DEC, with what it adds to the byte (R170, R173). -/
inductive AddsToByte : Mnemonic → (Byte → Flags → Byte × Flags) → Int → Prop where
  | inc : AddsToByte .inc incResult 1
  | dec : AddsToByte .dec decResult (-1)

theorem exists_addsToByte {m : Mnemonic} {delta : Int} (h : (m = .inc ∧ delta = 1) ∨ (m = .dec ∧ delta = -1)) :
    ∃ op, AddsToByte m op delta := by
  obtain ⟨rfl, rfl⟩ | ⟨rfl, rfl⟩ := h
  exacts [⟨_, .inc⟩, ⟨_, .dec⟩]

section
variable {m : Mnemonic} {op : Byte → Flags → Byte × Flags} {delta : Int}

/-- One more and one less are the two cases of one sum mod 256. -/
theorem AddsToByte.eq_setNZ (h : AddsToByte m op delta) (v : Byte) (f : Flags) :
    op v f = (v + BitVec.ofInt 8 delta, f.setNZ (v + BitVec.ofInt 8 delta)) := by
  cases h with
  | inc => rfl
  | dec => rw [decResult, BitVec.sub_eq_add_neg]; rfl

/-- The byte and the flags of INC or DEC, from the result as an integer. -/
theorem AddsToByte.eq (h : AddsToByte m op delta) (v : Byte) (f : Flags) :
    op v f = (BitVec.ofInt 8 ((v.toNat + delta) % 256),
      { f with n := decide (128 ≤ (v.toNat + delta) % 256), z := decide ((v.toNat + delta) % 256 = 0) }) := by
  rw [h.eq_setNZ, add_ofInt_eq, setNZ_ofInt_emod]

theorem AddsToByte.meaningOf_mem (h : AddsToByte m op delta) (mf : MemForm) (opcode : Byte) (s : State) :
    meaningOf m (.data (.mem mf)) opcode s = modifyAt mf op s := by
  cases h <;> rfl

theorem AddsToByte.exists_memForm {i : Instr} (h : AddsToByte i.mnemonic op delta) :
    ∃ mf, i.form = .data (.mem mf) := by
  have ok := hasForm_form i
  generalize i.mnemonic = m at h ok
  cases h <;> exact ok

end

/-- Settles O29: both mnemonics modify the byte at the effective address, and `AddsToByte.eq` says what becomes of it. -/
theorem memoryIncrementAndDecrementResult : Obligations.MemoryIncrementAndDecrementResult := by
  intro i s delta hm
  obtain ⟨op, hop⟩ := exists_addsToByte hm
  obtain ⟨mf, hform⟩ := hop.exists_memForm
  refine ⟨mf, hform, fun ea he => ?_⟩
  rw [exec_eq_meaningOf, hform, hop.meaningOf_mem, modifyAt_of_ok he, hop.eq, State.advance, State.writeByte_pc]
  rfl

/-- N and Z of a byte by its value (R30). -/
theorem setNZ_eq_toNat (v : Byte) (f : Flags) :
    f.setNZ v = { f with n := decide (128 ≤ v.toNat), z := decide (v.toNat = 0) } := by
  rw [← setNZ_ofNat v.isLt, BitVec.ofNat_toNat, BitVec.setWidth_eq]

theorem add_one_eq_ofNat (v : Byte) : v + 1 = BitVec.ofNat 8 (v.toNat + 1) := by
  rw [BitVec.ofNat_add, BitVec.ofNat_toNat, BitVec.setWidth_eq]
  rfl

/-- One less is 255 more, mod 256. -/
theorem sub_one_eq_ofNat (v : Byte) : v - 1 = BitVec.ofNat 8 (v.toNat + 255) := by
  rw [BitVec.ofNat_add, BitVec.ofNat_toNat, BitVec.setWidth_eq, BitVec.sub_eq_add_neg]
  rfl

section
variable {i : Instr} {k : Nat} {s : State} {v : Byte}

/-- `implied_complete` for a meaning that writes X, with N and Z from it. -/
theorem implied_setX_complete (hform : i.form = .imp) (hclass : timingClass i.mnemonic = .other k)
    (hexec : exec i s = implied (fun s => s.setX v) s) :
    encode i = [i.opcode] ∧ cyclesOf i s = k ∧ exec i s = .next { s with
      x := v
      p := { s.p with n := decide (128 ≤ v.toNat), z := decide (v.toNat = 0) }
      pc := s.pc + 1 } := by
  rw [← setNZ_eq_toNat]
  exact implied_complete hform hclass hexec

/-- `implied_complete` for a meaning that writes Y, with N and Z from it. -/
theorem implied_setY_complete (hform : i.form = .imp) (hclass : timingClass i.mnemonic = .other k)
    (hexec : exec i s = implied (fun s => s.setY v) s) :
    encode i = [i.opcode] ∧ cyclesOf i s = k ∧ exec i s = .next { s with
      y := v
      p := { s.p with n := decide (128 ≤ v.toNat), z := decide (v.toNat = 0) }
      pc := s.pc + 1 } := by
  rw [← setNZ_eq_toNat]
  exact implied_complete hform hclass hexec

end

/-- Settles O30: each mnemonic is implied, of two cycles, and writes its own register plus or minus one (R171, R172, R174,
R175). -/
theorem registerIncrementAndDecrementResult : Obligations.RegisterIncrementAndDecrementResult := by
  intro s flags plus minus
  have hplus : ∀ v : Byte, v + 1 = plus v := add_one_eq_ofNat
  have hminus : ∀ v : Byte, v - 1 = minus v := sub_one_eq_ofNat
  obtain ⟨inxBytes, inxCycles, inxExec⟩ :=
    implied_setX_complete (i := .inx) (s := s) (v := plus s.x) rfl rfl (by rw [← hplus]; rfl)
  obtain ⟨inyBytes, inyCycles, inyExec⟩ :=
    implied_setY_complete (i := .iny) (s := s) (v := plus s.y) rfl rfl (by rw [← hplus]; rfl)
  obtain ⟨dexBytes, dexCycles, dexExec⟩ :=
    implied_setX_complete (i := .dex) (s := s) (v := minus s.x) rfl rfl (by rw [← hminus]; rfl)
  obtain ⟨deyBytes, deyCycles, deyExec⟩ :=
    implied_setY_complete (i := .dey) (s := s) (v := minus s.y) rfl rfl (by rw [← hminus]; rfl)
  exact ⟨inxBytes, inxCycles, inxExec, inyBytes, inyCycles, inyExec, dexBytes, dexCycles, dexExec, deyBytes, deyCycles,
    deyExec⟩

end Sys2Proof.Machine
end

section
/-! The jumps and the subroutine call (spec 46_jump_subroutine.md R180 to R184): the target of JMP (nn) by where nn lies, and
JSR and RTS as one push and one pull of a word. -/

namespace Sys2Proof.Machine

/-- The last byte of a page, by its number (R181). -/
theorem lowByte_eq_last_iff (w : Word) : lowByte w = 0xFF#8 ↔ w.toNat % 256 = 255 := by
  rw [← BitVec.toNat_inj, toNat_lowByte]
  rfl

/-- The start of the page of an address, by its number (R181). -/
theorem joinBytes_highByte_zero (w : Word) :
    joinBytes (highByte w) 0x00#8 = BitVec.ofNat 16 (256 * (w.toNat / 256)) := by
  rw [joinBytes_eq_ofNat, toNat_highByte]
  rfl

section
variable {nn : Word} {s : State}

/-- Inside a page the target is the word at nn and the next location, low byte first (R54, R181). -/
theorem indirectTarget_inside (h : nn.toNat % 256 ≠ 255) :
    indirectTarget nn s = .ok (joinBytes (s.readByte .pointerHigh (nn + 1)) (s.readByte .pointerLow nn)) :=
  if_neg (mt (lowByte_eq_last_iff nn).1 h)

/-- At the last byte of a page `JMP_IND_CROSS` decides (R181). -/
theorem indirectTarget_refuse (h : nn.toNat % 256 = 255) (hcross : s.params.jmpIndCross = .refuse) :
    indirectTarget nn s = .error .jmpIndirectCross := by
  rw [indirectTarget, if_pos ((lowByte_eq_last_iff nn).2 h), hcross]

theorem indirectTarget_linear (h : nn.toNat % 256 = 255) (hcross : s.params.jmpIndCross = .linear) :
    indirectTarget nn s = .ok (joinBytes (s.readByte .pointerHigh (nn + 1)) (s.readByte .pointerLow nn)) := by
  rw [indirectTarget, if_pos ((lowByte_eq_last_iff nn).2 h), hcross]

theorem indirectTarget_pageWrap (h : nn.toNat % 256 = 255) (hcross : s.params.jmpIndCross = .pageWrap) :
    indirectTarget nn s = .ok (joinBytes (s.readByte .pointerHigh (BitVec.ofNat 16 (256 * (nn.toNat / 256))))
      (s.readByte .pointerLow nn)) := by
  rw [indirectTarget, if_pos ((lowByte_eq_last_iff nn).2 h), hcross, joinBytes_highByte_zero]

theorem exec_jmpInd_of_ok {w : Word} (h : indirectTarget nn s = .ok w) :
    exec (.jmpInd nn) s = .next { s with pc := w } := by
  show execJmpInd nn s = _
  rw [execJmpInd, h]

end

/-- Settles O31: JMP nn by its meaning, JMP (nn) by its target. -/
theorem jumpsSetThePc : Obligations.JumpsSetThePc := by
  intro s nn target
  have htarget : ∀ high, joinBytes (s.readByte .pointerHigh high) (s.readByte .pointerLow nn) = target high :=
    fun high => joinBytes_eq_ofNat _ _
  refine ⟨rfl, fun h => ?inside, fun h hcross => ?refuse, fun h hcross => ?linear, fun h hcross => ?pageWrap⟩
  case inside => exact exec_jmpInd_of_ok (htarget _ ▸ indirectTarget_inside h)
  case refuse => exact execJmpInd_refused_iff.2 (indirectTarget_refuse h hcross)
  case linear => exact exec_jmpInd_of_ok (htarget _ ▸ indirectTarget_linear h hcross)
  case pageWrap => exact exec_jmpInd_of_ok (htarget _ ▸ indirectTarget_pageWrap h hcross)

theorem exec_jsr (nn : Word) (s : State) : exec (.jsr nn) s = .next { s.push16 (s.pc + 2) with pc := nn } := rfl

theorem exec_rts (s : State) : exec .rts s = .next { s.pull16 with pc := s.pulledWord + 1 } := rfl

/-- Settles O33: RTS pulls the word that JSR pushed, whatever the pc is in between, and goes to it plus one. -/
theorem rtsReturnsBehindItsJsr : Obligations.RtsReturnsBehindItsJsr := by
  intro s nn exitPc hs hram
  refine ⟨_, _, exec_jsr nn s, exec_rts _, ?pc, ?sp, ?a, ?x, ?y, ?p⟩
  case pc =>
    calc (s.push16 (s.pc + 2)).pulledWord + 1
        = s.pc + 2 + 1 := by rw [pulledWord_push16 _ hs hram]
      _ = s.pc + 3 := BitVec.add_assoc _ _ _
  case sp =>
    calc (s.push16 (s.pc + 2)).sp + 1 + 1
        = s.sp - 1 - 1 + 1 + 1 := by rw [State.push16_sp]
      _ = s.sp := by rw [BitVec.sub_add_cancel, BitVec.sub_add_cancel]
  case a => exact State.push16_a s _
  case x => exact State.push16_x s _
  case y => exact State.push16_y s _
  case p => exact State.push16_p s _

/-- A write does not read S. -/
theorem writeByte_with_sp (s : State) (sp : Byte) (addr : Word) (v : Byte) :
    State.writeByte { s with sp := sp } addr v = { s.writeByte addr v with sp := sp } := by
  cases h : kindAt s.params addr <;> simp [State.writeByte, h]

/-- A word is pushed by two writes, of the high byte at the free location and of the low byte below it (R62). -/
theorem push16_eq (s : State) (w : Word) : s.push16 w =
    { (s.writeByte (stackAddress s.sp) (highByte w)).writeByte (stackAddress (s.sp - 1)) (lowByte w) with
      sp := s.sp - 2 } := by
  have hsp : s.sp - 1 - 1 = s.sp - 2 := by bv_omega
  rw [State.push16, State.push8, State.push8_sp, hsp, State.push8, writeByte_with_sp]

theorem pull16_eq (s : State) : s.pull16 = { s with sp := s.sp + 2 } := by
  have hsp : s.sp + 1 + 1 = s.sp + 2 := BitVec.add_assoc _ _ _
  rw [← hsp]
  rfl

/-- The word of two pulls, low byte first, as a number (R63). -/
theorem pulledWord_eq_ofNat (s : State) : s.pulledWord = BitVec.ofNat 16
    (256 * (s.readByte .stack (stackAddress (s.sp + 2))).toNat + (s.readByte .stack (stackAddress (s.sp + 1))).toNat) := by
  have hsp : s.sp + 1 + 1 = s.sp + 2 := BitVec.add_assoc _ _ _
  rw [State.pulledWord, joinBytes_eq_ofNat, State.pulledByte, State.pulledByte, readByte_pull8, State.pull8_sp, hsp]

/-- Settles O32: the push and the pull of a word, written out. -/
theorem subroutineCallAndReturnResult : Obligations.SubroutineCallAndReturnResult := by
  intro s nn
  refine ⟨rfl, rfl, encode_of_form_imp rfl, cyclesOf_of_form_imp rfl rfl s, ?jsr, ?rts⟩
  case jsr => rw [exec_jsr, push16_eq]
  case rts =>
    rw [exec_rts, pull16_eq, pulledWord_eq_ofNat, BitVec.ofNat_add _ 1]
    rfl

end Sys2Proof.Machine
end

section
/-! Loads and stores (spec 47_load_store.md R190 to R195): each mnemonic by the register that it names. -/

namespace Sys2Proof.Machine

/-- N and Z of a byte: bit 7 says that it is at least 128 (R30). -/
theorem setNZ_eq_decide (v : Byte) (f : Flags) :
    f.setNZ v = { f with n := decide (128 ≤ v.toNat), z := decide (v = 0) } := by
  rw [Flags.setNZ, BitVec.msb_eq_decide]
  rfl

/-- A load and the register that it writes (R190 to R192). -/
inductive Loads : Mnemonic → (Byte → State → State) → Prop where
  | lda : Loads .lda (fun d s => s.setA d)
  | ldx : Loads .ldx (fun d s => s.setX d)
  | ldy : Loads .ldy (fun d s => s.setY d)

theorem exists_loads {m : Mnemonic} (h : m = .lda ∨ m = .ldx ∨ m = .ldy) : ∃ load, Loads m load := by
  obtain rfl | rfl | rfl := h
  exacts [⟨_, .lda⟩, ⟨_, .ldx⟩, ⟨_, .ldy⟩]

section
variable {m : Mnemonic} {load : Byte → State → State}

theorem Loads.mem_readers (h : Loads m load) : m ∈ readers := by
  cases h <;> decide

theorem Loads.meaningOf_eq (h : Loads m load) (src : Source) (opcode : Byte) (s : State) :
    meaningOf m (.data src) opcode s = withOperand src load s := by
  cases h <;> rfl

/-- The three loads as one update, in which only the named register takes the byte. -/
theorem Loads.eq (h : Loads m load) (d : Byte) (s : State) : load d s = { s with
    a := if m = .lda then d else s.a
    x := if m = .ldx then d else s.x
    y := if m = .ldy then d else s.y
    p := s.p.setNZ d } := by
  cases h <;> rfl

end

/-- Settles O34: a load is `withOperand` of its register, and `Loads.eq` says what becomes of the state. -/
theorem loadResult : Obligations.LoadResult := by
  intro i s hm
  obtain ⟨load, hload⟩ := exists_loads hm
  obtain ⟨src, hform⟩ := exists_source (.inr (.inr hload.mem_readers))
  refine ⟨src, hform, fun d hd => ?_⟩
  rw [exec_eq_meaningOf, hform, hload.meaningOf_eq, withOperand_of_ok hd, hload.eq, setNZ_eq_decide]
  rfl

theorem storeAt_of_ok {m : MemForm} {s : State} {ea : Word} (he : effectiveAddress m s = .ok ea) (v : Byte) :
    storeAt m v s = .next ((s.writeByte ea v).advance (Source.mem m).length) := by
  simp only [storeAt, he]

/-- STA stores A, STX X and STY Y (R193 to R195). -/
def Stores (s : State) (m : Mnemonic) (reg : Byte) : Prop :=
  (m = .sta ∧ reg = s.a) ∨ (m = .stx ∧ reg = s.x) ∨ (m = .sty ∧ reg = s.y)

theorem Stores.exec_eq {i : Instr} {s : State} {reg : Byte} (h : Stores s i.mnemonic reg) {mf : MemForm}
    (hform : i.form = .data (.mem mf)) : exec i s = storeAt mf reg s := by
  rw [exec_eq_meaningOf, hform]
  obtain ⟨hm, rfl⟩ | ⟨hm, rfl⟩ | ⟨hm, rfl⟩ := h <;> rw [hm] <;> rfl

/-- A store has no immediate form (R95). -/
theorem Stores.exists_memForm {i : Instr} {s : State} {reg : Byte} (h : Stores s i.mnemonic reg) :
    ∃ mf, i.form = .data (.mem mf) := by
  have ok := hasForm_form i
  obtain ⟨hm, -⟩ | ⟨hm, -⟩ | ⟨hm, -⟩ := h <;> rw [hm] at ok <;> exact ok

/-- Settles O35: the register that the mnemonic names, written at the effective address. -/
theorem storeResult : Obligations.StoreResult := by
  intro i s reg hreg
  have hstore : Stores s i.mnemonic reg := hreg
  obtain ⟨mf, hform⟩ := hstore.exists_memForm
  refine ⟨mf, hform, fun ea he => ?_⟩
  rw [hstore.exec_eq hform, storeAt_of_ok he, State.advance, State.writeByte_pc]
  rfl

end Sys2Proof.Machine
end

section
/-! PHA, PHP, PLA and PLP, the transfers and NOP (spec 48_stack_transfer.md R200 to R209, 49_system.md R217): each is an
implied instruction whose change of state the model names. -/

namespace Sys2Proof.Machine

/-- `implied_complete` for a meaning that pushes a byte. -/
theorem implied_push8_complete {i : Instr} {k : Nat} {s : State} {v : Byte} (hform : i.form = .imp)
    (hclass : timingClass i.mnemonic = .other k) (hexec : exec i s = implied (fun s => s.push8 v) s) :
    encode i = [i.opcode] ∧ cyclesOf i s = k ∧
      exec i s = .next { s.writeByte (stackAddress s.sp) v with sp := s.sp - 1, pc := s.pc + 1 } := by
  rw [← State.writeByte_pc s (stackAddress s.sp) v]
  exact implied_complete hform hclass hexec

/-- Settles O39: PHA and PHP push their byte, PLA and PLP pull theirs. -/
theorem pushAndPullInstructionResult : Obligations.PushAndPullInstructionResult := by
  intro s pulled
  obtain ⟨phaBytes, phaCycles, phaExec⟩ := implied_push8_complete (i := .pha) (s := s) (v := s.a) rfl rfl rfl
  obtain ⟨phpBytes, phpCycles, phpExec⟩ :=
    implied_push8_complete (i := .php) (s := s) (v := s.p.pByte true) rfl rfl rfl
  obtain ⟨plaBytes, plaCycles, plaExec⟩ :=
    implied_complete (i := .pla) (s := s) (f := fun s => s.pull8.setA s.pulledByte) rfl rfl rfl
  obtain ⟨plpBytes, plpCycles, plpExec⟩ :=
    implied_complete (i := .plp) (s := s) (f := fun s => { s.pull8 with p := flagsOfByte s.pulledByte }) rfl rfl rfl
  refine ⟨phaBytes, phaCycles, phaExec, phpBytes, phpCycles, phpExec, plaBytes, plaCycles, ?_, plpBytes, plpCycles,
    plpExec⟩
  rw [plaExec, ← setNZ_eq_decide]
  rfl

theorem exec_php (s : State) : exec .php s = .next ((s.push8 (s.p.pByte true)).advance 1) := rfl

theorem exec_plp (s : State) : exec .plp s = .next ({ s.pull8 with p := flagsOfByte s.pulledByte }.advance 1) := rfl

/-- Settles O40: PLP pulls the byte that PHP pushed, whatever P and A are in between, and that byte holds the flags. -/
theorem plpRestoresWhatPhpPushed : Obligations.PlpRestoresWhatPhpPushed := by
  intro s f a hs hram
  refine ⟨_, _, exec_php s, exec_plp _, ?p, ?sp, rfl⟩
  case p =>
    calc flagsOfByte (s.push8 (s.p.pByte true)).pulledByte
        = flagsOfByte (s.p.pByte true) := by rw [pulledByte_push8 _ hs hram]
      _ = s.p := flagsOfByte_pByte s.p true
  case sp =>
    calc (s.push8 (s.p.pByte true)).sp + 1
        = s.sp - 1 + 1 := by rw [State.push8_sp]
      _ = s.sp := BitVec.sub_add_cancel _ _

/-- Settles O41: a transfer sets a register, with N and Z from the byte but for TXS; NOP sets none. -/
theorem transferAndNopResult : Obligations.TransferAndNopResult := by
  intro s flags
  have hflags : ∀ r, s.p.setNZ r = flags r := fun r => setNZ_eq_decide r s.p
  simp only [← hflags]
  refine ⟨?tax, ?tay, ?tsx, ?txa, ?txs, ?tya, ?nop⟩
  case tax => exact implied_complete (f := fun s => s.setX s.a) rfl rfl rfl
  case tay => exact implied_complete (f := fun s => s.setY s.a) rfl rfl rfl
  case tsx => exact implied_complete (f := fun s => s.setX s.sp) rfl rfl rfl
  case txa => exact implied_complete (f := fun s => s.setA s.x) rfl rfl rfl
  case txs => exact implied_complete (f := fun s => { s with sp := s.x }) rfl rfl rfl
  case tya => exact implied_complete (f := fun s => s.setA s.y) rfl rfl rfl
  case nop => exact implied_complete (f := fun s => s) rfl rfl rfl

end Sys2Proof.Machine
end

section
/-! Taking an exception and returning from it (spec 49_system.md R215, R216, 60_exceptions.md R229, R233): what BRK, IRQ
and NMI leave in the registers and on the stack, and that RTI undoes it. -/

namespace Sys2Proof.Machine

/-- On the stack of `t` stands the frame of an entry from `s`: `ret`, high byte first, then the image of P with
bit 4 = `b` (R229, R65). -/
def HoldsFrame (s t : State) (b : Bool) (ret : Word) : Prop :=
  ∀ use, t.readByte use (stackAddress s.sp) = highByte ret ∧
    t.readByte use (stackAddress (s.sp - 1)) = lowByte ret ∧
    t.readByte use (stackAddress (s.sp - 2)) = s.p.pByte b

/-- The push of P stores below the two bytes of the word and leaves them. -/
theorem takeException_holdsFrame {s : State} (b : Bool) (ret vector : Word) (hs : s.Inv) (hram : stackIsRam s.params) :
    HoldsFrame s (s.takeException b ret vector) b ret := by
  have hsp : (s.push16 ret).sp = s.sp - 2 := by
    rw [State.push16_sp]
    bv_omega
  have habove : ∀ use (k : Byte), k ≠ s.sp - 2 → (s.takeException b ret vector).readByte use (stackAddress k)
      = (s.push16 ret).readByte use (stackAddress k) := fun use k hk =>
    readByte_push8_other (s.p.pByte b) use (cellOf_stackAddress_ne _ (hsp ▸ hk))
  intro use
  refine ⟨?high, ?low, ?status⟩
  case high => rw [habove use _ (by bv_omega), readByte_push16_high ret use hs hram]
  case low => rw [habove use _ (by bv_omega), readByte_push16_low ret use hs hram]
  case status =>
    rw [← hsp]
    exact readByte_push8_self (s.p.pByte b) use (push16_Inv s ret hs) (by simpa using hram)

/-- What an entry from `s` to `t` does: I = 1 and no other flag, the pc from the vector as memory then is, and the frame
pushed (R229, R230). -/
structure Enters (s t : State) (b : Bool) (ret vector : Word) : Prop where
  p : t.p = { s.p with i := true }
  sp : t.sp = s.sp - 3
  a : t.a = s.a
  x : t.x = s.x
  y : t.y = s.y
  pc : t.pc = t.readVector vector
  frame : s.Inv → stackIsRam s.params → HoldsFrame s t b ret

theorem takeException_enters (s : State) (b : Bool) (ret vector : Word) :
    Enters s (s.takeException b ret vector) b ret vector where
  p := State.takeException_p s b ret vector
  sp := (takeException_pushes s b ret vector).sp
  a := State.takeException_a s b ret vector
  x := State.takeException_x s b ret vector
  y := State.takeException_y s b ret vector
  pc := rfl
  frame := takeException_holdsFrame b ret vector

theorem exec_brk (s : State) : exec .brk s = .next (s.takeException true (s.pc + 2) irqVector) := rfl

/-- Settles O42: the exception with bit 4 set, from the pc after the BRK plus 1; the latch is not in it. -/
theorem brkEntersThroughTheIrqVector : Obligations.BrkEntersThroughTheIrqVector := by
  intro s
  obtain ⟨hp, hsp, ha, hx, hy, hpc, hframe⟩ := takeException_enters s true (s.pc + 2) irqVector
  exact ⟨_, exec_brk s, hp, hsp, ha, hx, hy, State.takeException_nmiPending s _ _ _, hpc, hframe⟩

theorem exec_rti (s : State) : exec .rti s = .next s.returnFromException := rfl

/-- The three pulls of RTI: P above the free location, then the two bytes of the pc (R216). -/
theorem returnFromException_eq (s : State) : s.returnFromException = { s with
    sp := s.sp + 3
    p := flagsOfByte (s.readByte .stack (stackAddress (s.sp + 1)))
    pc := joinBytes (s.readByte .stack (stackAddress (s.sp + 3))) (s.readByte .stack (stackAddress (s.sp + 2))) } := by
  have htwo : s.sp + 1 + 1 = s.sp + 2 := BitVec.add_assoc _ _ _
  have hthree : s.sp + 1 + 1 + 1 = s.sp + 3 := by rw [htwo]; exact BitVec.add_assoc _ _ _
  rw [← hthree, ← htwo]
  rfl

/-- Settles O43, by the three pulls of RTI. -/
theorem rtiPullsStatusThenPc : Obligations.RtiPullsStatusThenPc := by
  intro s pulled
  refine ⟨encode_of_form_imp rfl, cyclesOf_of_form_imp rfl rfl s, ?_⟩
  rw [exec_rti, returnFromException_eq]
  rfl

/-- RTI with S as an entry left it and the frame still on the stack restores the pc, P and S (R233). -/
theorem returnFromException_of_frame {s t : State} {b : Bool} {ret : Word} (hsp : t.sp = s.sp - 3)
    (hframe : HoldsFrame s t b ret) :
    t.returnFromException.pc = ret ∧ t.returnFromException.p = s.p ∧ t.returnFromException.sp = s.sp := by
  obtain ⟨hhigh, hlow, hstatus⟩ := hframe .stack
  have hone : t.sp + 1 = s.sp - 2 := by bv_omega
  have htwo : t.sp + 2 = s.sp - 1 := by bv_omega
  have hthree : t.sp + 3 = s.sp := by bv_omega
  rw [returnFromException_eq, hone, htwo, hthree, hhigh, hlow, hstatus, joinBytes_split, flagsOfByte_pByte]
  exact ⟨rfl, rfl, rfl⟩

/-- Settles O47: the handler's A, X, Y, P and pc are no part of the frame. -/
theorem rtiResumesTheInterruptedProgram : Obligations.RtiResumesTheInterruptedProgram := by
  intro s exitPc a x y f hs hram
  have resumes : ∀ (b : Bool) (ret vector : Word), ∃ u,
      exec .rti { s.takeException b ret vector with a := a, x := x, y := y, p := f, pc := exitPc } = .next u ∧
      u.pc = ret ∧ u.p = s.p ∧ u.sp = s.sp ∧ u.a = a ∧ u.x = x ∧ u.y = y := fun b ret vector => by
    have hentry := takeException_enters s b ret vector
    obtain ⟨hpc, hp, hsp⟩ := returnFromException_of_frame
      (t := { s.takeException b ret vector with a := a, x := x, y := y, p := f, pc := exitPc })
      hentry.sp (hentry.frame hs hram)
    exact ⟨_, exec_rti _, hpc, hp, hsp, rfl, rfl, rfl⟩
  exact ⟨resumes, _, (resumes true (s.pc + 2) irqVector).imp fun _ hu => ⟨exec_brk s, hu⟩⟩

end Sys2Proof.Machine
end

section
/-! The boundary and what it leads to (spec 60_exceptions.md R223 to R231, 70_reset_and_hazards.md R250): the entries of
IRQ, NMI and RES, and the latch that no step leaves set. -/

namespace Sys2Proof.Machine

/-- Settles O51: the one field with a condition is P, of which a boundary may change V alone. -/
theorem boundaryChangesNoRegister : Obligations.BoundaryChangesNoRegister := by
  intro s
  refine ⟨?_, fun hpin => by rw [State.atBoundary_p s hpin]⟩
  rw [← State.atBoundary_p_except_v]
  rfl

section
variable {s : State}

/-- RES overrides the other lines (R226, R227). -/
theorem event_of_res (hres : s.lines.res = true) : s.event = .reset := by
  simp [State.event, hres]

/-- An NMI comes before an IRQ and heeds no flag (R225, R227). -/
theorem event_of_nmi (hres : s.lines.res = false) (hnmi : s.nmiPending = true ∨ s.lines.nmiFell = true) :
    s.event = .nmi := by
  have hwaits : (s.nmiPending || s.lines.nmiFell) = true := (Bool.or_eq_true _ _).symm ▸ hnmi
  simp only [State.event, hres, hwaits, Bool.false_eq_true, if_false, if_true]

/-- An IRQ is recognised with I = 0 when nothing of higher priority is (R224, R227). -/
theorem event_of_irq (hres : s.lines.res = false) (hnmi : s.nmiPending = false) (hfell : s.lines.nmiFell = false)
    (hirq : s.lines.irqLow = true) (hi : s.p.i = false) : s.event = .irq := by
  simp [State.event, hres, hnmi, hfell, hirq, hi]

theorem step_of_event_reset (h : s.event = .reset) : step s = .next (s.atBoundary.enterReset.spend entryCycles) := by
  simp [step, h]

theorem step_of_event_nmi (h : s.event = .nmi) : step s = .next (s.atBoundary.enterNmi.spend entryCycles) := by
  simp [step, h]

theorem step_of_event_irq (h : s.event = .irq) : step s = .next (s.atBoundary.enterIrq.spend entryCycles) := by
  simp [step, h]

end

/-- The cycle observer and the latch are no part of what an entry does. -/
theorem Enters.congr {s t u : State} {b : Bool} {ret vector : Word} (h : Enters s t b ret vector) {k : Nat} {l : Bool}
    (hu : u = { t with cycles := k, nmiPending := l }) : Enters s u b ret vector := by
  subst hu
  exact ⟨h.p, h.sp, h.a, h.x, h.y, h.pc, h.frame⟩

/-- The IRQ entry is the exception from the state after the boundary (R224, R229). -/
theorem enterIrq_enters (s : State) :
    Enters s.atBoundary (s.atBoundary.enterIrq.spend entryCycles) false s.pc irqVector :=
  (takeException_enters s.atBoundary false s.pc irqVector).congr rfl

/-- The NMI entry is the exception from the state after the boundary, with the latch cleared (R225, R229). -/
theorem enterNmi_enters (s : State) :
    Enters s.atBoundary (s.atBoundary.enterNmi.spend entryCycles) false s.pc nmiVector :=
  (takeException_enters s.atBoundary false s.pc nmiVector).congr rfl

/-- Settles O44: the latch is clear because neither it nor the line said otherwise. -/
theorem irqEntryTakesTheException : Obligations.IrqEntryTakesTheException := by
  intro s hres hnmi hfell hirq hi
  obtain ⟨hp, hsp, ha, hx, hy, hpc, hframe⟩ := enterIrq_enters s
  have hlatch : (s.atBoundary.enterIrq.spend entryCycles).nmiPending = false := by simp [hnmi, hfell]
  exact ⟨_, step_of_event_irq (event_of_irq hres hnmi hfell hirq hi), hp, hsp, ha, hx, hy, hlatch, hpc,
    fun hs => hframe ((atBoundary_Inv s).2 hs)⟩

/-- Settles O45: the entry clears the latch. -/
theorem nmiEntryTakesTheException : Obligations.NmiEntryTakesTheException := by
  intro s hres hnmi
  obtain ⟨hp, hsp, ha, hx, hy, hpc, hframe⟩ := enterNmi_enters s
  exact ⟨_, step_of_event_nmi (event_of_nmi hres hnmi), hp, hsp, ha, hx, hy, rfl, hpc,
    fun hs => hframe ((atBoundary_Inv s).2 hs)⟩

/-- Settles O46: the reset sequence reads its vector in the memory it leaves as it was. -/
theorem resetSequenceGoesThroughTheResVector : Obligations.ResetSequenceGoesThroughTheResVector :=
  fun _ hres => ⟨_, step_of_event_reset (event_of_res hres), rfl, rfl, rfl, rfl, rfl, rfl⟩

/-- After a boundary that leads to no NMI and no RES, no edge waits (R228). -/
theorem nmi_quiet_of_event {s : State} (h : s.event = .irq ∨ s.event = .instruction) :
    (s.nmiPending || s.lines.nmiFell) = false := by
  rcases event_cases s with ⟨he, -⟩ | ⟨he, -⟩ | ⟨-, -, hquiet, -⟩ | ⟨-, -, hquiet, -⟩
  · simp [he] at h
  · simp [he] at h
  · exact hquiet
  · exact hquiet

/-- The NMI and RES sequences clear the latch, an IRQ entry or an instruction follows a boundary that left it clear. -/
theorem step_clears_nmiPending {s t : State} (h : step s = .next t) : t.nmiPending = false := by
  rcases step_next_cases h with ⟨-, rfl⟩ | ⟨-, rfl⟩ | ⟨he, rfl⟩ | ⟨he, i, u, -, hu, rfl⟩
  · rfl
  · rfl
  · rw [State.spend_nmiPending, State.enterIrq_nmiPending]
    exact nmi_quiet_of_event (.inl he)
  · rw [State.spend_nmiPending, (exec_next_cases hu).changesOnly.nmiPending]
    exact nmi_quiet_of_event (.inr he)

/-- Settles O48: an NMI that waits leads to its entry (O45) or, under RES, to the reset sequence (O46). -/
theorem noStepLeavesTheNmiLatchSet : Obligations.NoStepLeavesTheNmiLatchSet := by
  intro s t h
  refine ⟨step_clears_nmiPending h, fun hnmi => ?_⟩
  cases hres : s.lines.res with
  | false =>
    obtain ⟨u, hu, -, hsp, -, -, -, -, hpc, -⟩ := nmiEntryTakesTheException s hres hnmi
    obtain rfl := Host.Outcome.next.inj (hu.symm.trans h)
    exact .inl ⟨rfl, hsp, hpc⟩
  | true =>
    obtain ⟨u, hu, -, -, hmem, hout, -, hpc⟩ := resetSequenceGoesThroughTheResVector s hres
    obtain rfl := Host.Outcome.next.inj (hu.symm.trans h)
    exact .inr ⟨rfl, hmem, hout, hpc⟩

end Sys2Proof.Machine
end

section
/-! The cycle counts (spec 70_reset_and_hazards.md R260, R262, R263): the count of each class of the timing table by
addressing form, and the two uses of "another page". -/

namespace Sys2Proof.Machine

/-- The page of an address is its high byte. -/
theorem highByte_eq_iff (v w : Word) : highByte v = highByte w ↔ v.toNat / 256 = w.toNat / 256 := by
  rw [← BitVec.toNat_inj, toNat_highByte, toNat_highByte]

section
variable {i : Instr} {n : Byte}

/-- The eight branches are all that has the Relative form; each is the common rule on its own condition (R150 to
R158). -/
theorem exec_of_form_rel (h : i.form = .rel n) (s : State) :
    exec i s = branchIf (branchTaken i.mnemonic s.p) n s := by
  cases i <;> cases h <;> rfl

theorem cyclesOf_of_form_rel (h : i.form = .rel n) (s : State) :
    cyclesOf i s = branchCycles (branchTaken i.mnemonic s.p) n s := by
  cases i <;> cases h <;> rfl

end

/-- Settles O58: the branch and its cycles follow one condition, and the page compared is that of the new pc. -/
theorem branchCyclesByPage : Obligations.BranchCyclesByPage := by
  intro i n s hform
  refine ⟨_, exec_of_form_rel hform s, fun hstay => ?_, fun htaken => ?_⟩
  · rw [cyclesOf_of_form_rel hform, hstay]
    exact ⟨rfl, rfl⟩
  · rw [cyclesOf_of_form_rel hform, htaken]
    refine ⟨rfl, ?_⟩
    rw [branchCycles, if_neg (by decide), if_congr (highByte_eq_iff _ _) rfl rfl]
    rfl

/-- The carry out of the low byte is what changes the page, at the end of memory as well (R263, log 17). -/
theorem highByte_add_ne_iff (base : Word) (index : Byte) :
    highByte (base + zeroExtend16 index) ≠ highByte base ↔ 256 ≤ (lowByte base).toNat + index.toNat := by
  have hbase := base.isLt
  have hindex := index.isLt
  rw [ne_eq, highByte_eq_iff, BitVec.toNat_add, toNat_zeroExtend16, toNat_lowByte]
  omega

theorem pageCrossing_eq (base : Word) (index : Byte) :
    pageCrossing base index = if highByte (base + zeroExtend16 index) = highByte base then 0 else 1 := by
  rw [pageCrossing, if_congr (highByte_add_ne_iff base index).symm rfl rfl, ite_not]

section
variable {i : Instr} {s : State}

theorem cyclesOf_read {src : Source} (hclass : timingClass i.mnemonic = .read) (hform : i.form = .data src) :
    cyclesOf i s = readCycles src + indexingCycles src s := by
  simp only [cyclesOf, hclass, hform]

theorem cyclesOf_store {mf : MemForm} (hclass : timingClass i.mnemonic = .store) (hform : i.form = .data (.mem mf)) :
    cyclesOf i s = storeCycles mf := by
  simp only [cyclesOf, hclass, hform]

theorem cyclesOf_modify {mf : MemForm} (hclass : timingClass i.mnemonic = .modify) (hform : i.form = .data (.mem mf)) :
    cyclesOf i s = modifyCycles mf := by
  simp only [cyclesOf, hclass, hform]

theorem cyclesOf_modify_acc (hclass : timingClass i.mnemonic = .modify) (hform : i.form = .acc) : cyclesOf i s = 2 := by
  simp only [cyclesOf, hclass, hform]

/-- A read whose form adds no 16-bit index has no "+" (R263). -/
theorem indexingCycles_eq_zero {src : Source}
    (h : ∀ nn n, src ≠ .mem (.abx nn) ∧ src ≠ .mem (.aby nn) ∧ src ≠ .mem (.iny n)) :
    indexingCycles src s = 0 := by
  cases src with
  | imm n => rfl
  | mem mf =>
    cases mf with
    | zp | zpx | zpy | abs | inx => rfl
    | abx nn => exact absurd rfl (h nn 0).1
    | aby nn => exact absurd rfl (h nn 0).2.1
    | iny n => exact absurd rfl (h 0 n).2.2

/-- The form (n),Y crosses a page from the base that its pointer holds. -/
theorem indexingCycles_iny {n : Byte} {base : Word} (h : zeroPagePointer n s = .ok base) :
    indexingCycles (.mem (.iny n)) s = pageCrossing base s.y := by
  simp only [indexingCycles, h]

/-- A read-class instruction reads its operand in a data form (R260). -/
theorem exists_source_of_read (hclass : timingClass i.mnemonic = .read) : ∃ src, i.form = .data src := by
  have ok := hasForm_form i
  generalize i.mnemonic = m at hclass ok
  cases m <;> cases hclass <;> exact ok

theorem exists_memForm_of_store (hclass : timingClass i.mnemonic = .store) : ∃ mf, i.form = .data (.mem mf) := by
  have ok := hasForm_form i
  generalize i.mnemonic = m at hclass ok
  cases m <;> cases hclass <;> exact ok

/-- INC and DEC have only the second of the two (R95). -/
theorem form_of_modify (hclass : timingClass i.mnemonic = .modify) :
    i.form = .acc ∨ ∃ mf, i.form = .data (.mem mf) := by
  have ok := hasForm_form i
  generalize i.mnemonic = m at hclass ok
  cases m <;> cases hclass
  case inc | dec => exact .inr ok
  all_goals exact ok

/-- The instructions of two cycles outside the classes are implied (R260). -/
theorem form_of_other_two (hclass : timingClass i.mnemonic = .other 2) : i.form = .imp := by
  have ok := hasForm_form i
  generalize i.mnemonic = m at hclass ok
  cases m <;> cases hclass <;> exact ok

end

/-- An entry of RES, NMI or IRQ goes on and takes 7 cycles (R260; log 21). -/
theorem step_cycles_of_entry {s : State} (h : s.event ≠ .instruction) :
    ∃ t, step s = .next t ∧ t.cycles = s.cycles + 7 := by
  cases he : s.event with
  | reset => exact ⟨_, step_of_event_reset he, rfl⟩
  | nmi => exact ⟨_, step_of_event_nmi he, by simp [entryCycles]⟩
  | irq => exact ⟨_, step_of_event_irq he, by simp [entryCycles]⟩
  | instruction => exact absurd he h

/-- The count of a store or a read-modify-write, and of a read without a "+", is a matter of mnemonic and form
(R260). -/
theorem cyclesOf_state_independent {i : Instr}
    (h : timingClass i.mnemonic = .store ∨ timingClass i.mnemonic = .modify ∨
      (timingClass i.mnemonic = .read ∧ ∀ nn n, i.form ≠ .data (.mem (.abx nn)) ∧ i.form ≠ .data (.mem (.aby nn)) ∧
        i.form ≠ .data (.mem (.iny n)))) (s t : State) : cyclesOf i t = cyclesOf i s := by
  obtain hclass | hclass | ⟨hclass, hfixed⟩ := h
  · obtain ⟨mf, hform⟩ := exists_memForm_of_store hclass
    rw [cyclesOf_store hclass hform, cyclesOf_store hclass hform]
  · obtain hform | ⟨mf, hform⟩ := form_of_modify hclass
    · rw [cyclesOf_modify_acc hclass hform, cyclesOf_modify_acc hclass hform]
    · rw [cyclesOf_modify hclass hform, cyclesOf_modify hclass hform]
  · obtain ⟨src, hform⟩ := exists_source_of_read hclass
    have hzero : ∀ u : State, indexingCycles src u = 0 := fun u =>
      indexingCycles_eq_zero (by simpa [hform] using hfixed)
    rw [cyclesOf_read hclass hform, cyclesOf_read hclass hform, hzero, hzero]

/-- Settles O59: the lists are the classes of `timingClass`, and each class has its count by form. -/
theorem cycleCountsOfEveryClassAndForm : Obligations.CycleCountsOfEveryClassAndForm := by
  unfold Obligations.CycleCountsOfEveryClassAndForm
  intro reads stores modifies registerOnly
  have hreads : ∀ m ∈ reads, timingClass m = .read := by simp only [reads]; decide
  have hstores : ∀ m ∈ stores, timingClass m = .store := by simp only [stores]; decide
  have hmodifies : ∀ m ∈ modifies, timingClass m = .modify := by simp only [modifies]; decide
  have hregisterOnly : ∀ m ∈ registerOnly, timingClass m = .other 2 := by simp only [registerOnly]; decide
  refine ⟨highByte_add_ne_iff, fun i s n nn => ⟨fun hi => ?reads, fun hi => ?stores, fun hi => ?modifies,
    fun hi => ?registerOnly, rfl, rfl, rfl, rfl, rfl, rfl, rfl, rfl, rfl, rfl, fun hi t => ?fixed⟩,
    fun s => step_cycles_of_entry⟩
  case reads =>
    have count : ∀ src, i.form = .data src → cyclesOf i s = readCycles src + indexingCycles src s :=
      fun _ => cyclesOf_read (hreads _ hi)
    refine ⟨count _, count _, ?zeroPageIndexed, count _, fun hform => ?abx, fun hform => ?aby, count _,
      fun base hform hbase => ?iny⟩
    case zeroPageIndexed => rintro (hform | hform) <;> exact count _ hform
    case abx => rw [count _ hform, ← pageCrossing_eq]; rfl
    case aby => rw [count _ hform, ← pageCrossing_eq]; rfl
    case iny => rw [count _ hform, indexingCycles_iny hbase, pageCrossing_eq]; rfl
  case stores =>
    have count : ∀ mf, i.form = .data (.mem mf) → cyclesOf i s = storeCycles mf :=
      fun _ => cyclesOf_store (hstores _ hi)
    refine ⟨count _, ?zeroPageIndexed, count _, ?indexed, ?pointer⟩
    all_goals rintro (hform | hform) <;> exact count _ hform
  case modifies =>
    have count : ∀ mf, i.form = .data (.mem mf) → cyclesOf i s = modifyCycles mf :=
      fun _ => cyclesOf_modify (hmodifies _ hi)
    exact ⟨cyclesOf_modify_acc (hmodifies _ hi), count _, count _, count _, count _⟩
  case registerOnly =>
    have hclass := hregisterOnly _ hi
    exact cyclesOf_of_form_imp (form_of_other_two hclass) hclass s
  case fixed =>
    exact cyclesOf_state_independent
      (hi.imp (hstores _) (Or.imp (hmodifies _) (And.imp_left (hreads _)))) s t

end Sys2Proof.Machine
end

section
/-! The cycle observer (spec 70_reset_and_hazards.md R264): no operation, no instruction and no step reads it. -/

namespace Sys2Proof.Machine

/-- The state with another count of cycles. -/
def State.withCycles (k : Nat) (s : State) : State := { s with cycles := k }

/-- The outcome with another count of cycles in the state that it goes on to. -/
def outcomeWithCycles (k : Nat) : Host.Outcome State Fault Refusal → Host.Outcome State Fault Refusal
  | .next s => .next (s.withCycles k)
  | .fault r => .fault r
  | .refused r => .refused r

section
variable (k : Nat) (s : State)

theorem effectiveAddress_withCycles (m : MemForm) : effectiveAddress m (s.withCycles k) = effectiveAddress m s :=
  effectiveAddress_congr rfl rfl rfl rfl rfl m

theorem operandByte_withCycles (src : Source) : operandByte src (s.withCycles k) = operandByte src s :=
  operandByte_congr rfl rfl rfl rfl rfl src

theorem writeByte_withCycles (addr : Word) (v : Byte) :
    (s.withCycles k).writeByte addr v = (s.writeByte addr v).withCycles k := by
  cases h : kindAt s.params addr <;> simp [State.writeByte, State.withCycles, h]

theorem push8_withCycles (v : Byte) : (s.withCycles k).push8 v = (s.push8 v).withCycles k := by
  rw [State.push8, State.push8, writeByte_withCycles]
  rfl

theorem push16_withCycles (w : Word) : (s.withCycles k).push16 w = (s.push16 w).withCycles k := by
  rw [State.push16, State.push16, push8_withCycles, push8_withCycles]

theorem takeException_withCycles (b : Bool) (ret vector : Word) :
    (s.withCycles k).takeException b ret vector = (s.takeException b ret vector).withCycles k := by
  rw [State.takeException, State.takeException, push16_withCycles, push8_withCycles]
  rfl

/-- The operand is the same; the rest is left to the computation. -/
theorem withOperand_withCycles (src : Source) {f : Byte → State → State}
    (hf : ∀ d, f d (s.withCycles k) = (f d s).withCycles k) :
    withOperand src f (s.withCycles k) = outcomeWithCycles k (withOperand src f s) := by
  rw [withOperand, withOperand, operandByte_withCycles]
  cases operandByte src s with
  | ok d =>
    simp only [hf]
    rfl
  | error r => rfl

theorem storeAt_withCycles (m : MemForm) (v : Byte) :
    storeAt m v (s.withCycles k) = outcomeWithCycles k (storeAt m v s) := by
  rw [storeAt, storeAt, effectiveAddress_withCycles]
  cases effectiveAddress m s with
  | ok ea =>
    simp only [writeByte_withCycles]
    rfl
  | error r => rfl

theorem modifyAt_withCycles (m : MemForm) (f : Byte → Flags → Byte × Flags) :
    modifyAt m f (s.withCycles k) = outcomeWithCycles k (modifyAt m f s) := by
  rw [modifyAt, modifyAt, effectiveAddress_withCycles]
  cases effectiveAddress m s with
  | ok ea =>
    simp only [writeByte_withCycles]
    rfl
  | error r => rfl

theorem decimalOutcome_withCycles (d value : Byte) (carry : Bool) :
    decimalOutcome d value carry (s.withCycles k) = (decimalOutcome d value carry s).map (State.withCycles k) := by
  have hparams : (s.withCycles k).params = s.params := rfl
  have ha : (s.withCycles k).a = s.a := rfl
  rw [decimalOutcome, decimalOutcome, hparams, ha]
  cases s.params.decimalMode with
  | refuse => rfl
  | bcdValidOnly => cases isBcd s.a && isBcd d <;> rfl

theorem addOperand_withCycles (d : Byte) :
    addOperand d (s.withCycles k) = (addOperand d s).map (State.withCycles k) := by
  have hp : (s.withCycles k).p = s.p := rfl
  rw [addOperand, addOperand, hp]
  split
  · exact decimalOutcome_withCycles k s d _ _
  · rfl

theorem subOperand_withCycles (d : Byte) :
    subOperand d (s.withCycles k) = (subOperand d s).map (State.withCycles k) := by
  have hp : (s.withCycles k).p = s.p := rfl
  rw [subOperand, subOperand, hp]
  split
  · exact decimalOutcome_withCycles k s d _ _
  · rfl

theorem arithmeticOn_withCycles (src : Source) {f : Byte → State → Except Refusal State}
    (hf : ∀ d, f d (s.withCycles k) = (f d s).map (State.withCycles k)) :
    arithmeticOn src f (s.withCycles k) = outcomeWithCycles k (arithmeticOn src f s) := by
  rw [arithmeticOn, arithmeticOn, operandByte_withCycles]
  cases operandByte src s with
  | error r => rfl
  | ok d =>
    simp only [hf]
    cases f d s <;> rfl

theorem execJmpInd_withCycles (nn : Word) :
    execJmpInd nn (s.withCycles k) = outcomeWithCycles k (execJmpInd nn s) := by
  have htarget : indirectTarget nn (s.withCycles k) = indirectTarget nn s := rfl
  rw [execJmpInd, execJmpInd, htarget]
  cases indirectTarget nn s <;> rfl

theorem ifPresent_withCycles (present : Bool) (op : Byte) (o : Host.Outcome State Fault Refusal) :
    ifPresent present op (outcomeWithCycles k o) = outcomeWithCycles k (ifPresent present op o) := by
  cases present <;> rfl

/-- No instruction reads the observer or writes it, by what each mnemonic does in its forms. -/
theorem exec_withCycles (i : Instr) : exec i (s.withCycles k) = outcomeWithCycles k (exec i s) := by
  have ok := hasForm_form i
  rw [exec_eq_meaningOf, exec_eq_meaningOf]
  generalize i.mnemonic = m at *
  generalize i.form = fm at *
  generalize i.opcode = op at *
  cases m
  case adc =>
    obtain ⟨src, rfl⟩ := ok
    exact arithmeticOn_withCycles k s src (addOperand_withCycles k s)
  case sbc =>
    obtain ⟨src, rfl⟩ := ok
    exact arithmeticOn_withCycles k s src (subOperand_withCycles k s)
  case cmp | cpx | cpy | and | eor | ora | bit | lda | ldx | ldy =>
    obtain ⟨src, rfl⟩ := ok
    unfold meaningOf
    refine withOperand_withCycles k s src ?_
    exact fun _ => rfl
  case sta | stx | sty =>
    obtain ⟨mf, rfl⟩ := ok
    exact storeAt_withCycles k s mf _
  case inc | dec =>
    obtain ⟨mf, rfl⟩ := ok
    exact modifyAt_withCycles k s mf _
  case asl | lsr | rol =>
    obtain rfl | ⟨mf, rfl⟩ := ok
    · rfl
    · exact modifyAt_withCycles k s mf _
  case ror =>
    obtain rfl | ⟨mf, rfl⟩ := ok
    · exact ifPresent_withCycles k s.params.hasRor op (modifyA rorResult s)
    · calc ifPresent s.params.hasRor op (modifyAt mf rorResult (s.withCycles k))
          = ifPresent s.params.hasRor op (outcomeWithCycles k (modifyAt mf rorResult s)) := by
            rw [modifyAt_withCycles]
        _ = outcomeWithCycles k (ifPresent s.params.hasRor op (modifyAt mf rorResult s)) :=
            ifPresent_withCycles k _ _ _
  case jmp =>
    obtain ⟨nn, rfl⟩ | ⟨nn, rfl⟩ := ok
    · exact execJmpInd_withCycles k s nn
    · rfl
  case jsr =>
    obtain ⟨nn, rfl⟩ := ok
    exact congrArg (fun t : State => Host.Outcome.next { t with pc := nn }) (push16_withCycles k s (s.pc + 2))
  case pha | php =>
    obtain rfl := (show fm = .imp from ok)
    exact congrArg (fun t : State => Host.Outcome.next (t.advance 1)) (push8_withCycles k s _)
  case brk =>
    obtain rfl := (show fm = .imp from ok)
    exact congrArg Host.Outcome.next (takeException_withCycles k s true (s.pc + 2) irqVector)
  case bcc | bcs | beq | bne | bmi | bpl | bvc | bvs =>
    obtain ⟨n, rfl⟩ := ok
    rfl
  all_goals
    obtain rfl := (show fm = .imp from ok)
    rfl

/-- What a step that goes on does to the observer: it adds to it (R264). -/
theorem spend_withCycles {u : State} (h : u.cycles = s.cycles) (c : Nat) :
    (u.withCycles k).spend c = (u.spend c).withCycles (k + ((u.spend c).cycles - s.cycles)) := by
  simp [State.spend, State.withCycles, h]

theorem enterReset_withCycles : (s.withCycles k).enterReset = s.enterReset.withCycles k := rfl

theorem enterNmi_withCycles : (s.withCycles k).enterNmi = s.enterNmi.withCycles k :=
  congrArg (fun t : State => { t with nmiPending := false }) (takeException_withCycles k s false s.pc nmiVector)

theorem enterIrq_withCycles : (s.withCycles k).enterIrq = s.enterIrq.withCycles k :=
  takeException_withCycles k s false s.pc irqVector

theorem atBoundary_withCycles : (s.withCycles k).atBoundary = s.atBoundary.withCycles k := rfl

theorem event_withCycles : (s.withCycles k).event = s.event := rfl

theorem fetch_withCycles : (s.withCycles k).fetch = s.fetch := rfl

/-- The count of an instruction does not depend on the counts before it. -/
theorem cyclesOf_withCycles (i : Instr) : cyclesOf i (s.withCycles k) = cyclesOf i s := rfl

theorem runInstruction_withCycles {i : Instr} (h : s.fetch = .ok i) :
    runInstruction (s.withCycles k) = spendOn (cyclesOf i s) (outcomeWithCycles k (exec i s)) := by
  rw [runInstruction_of_fetch ((fetch_withCycles k s).trans h), cyclesOf_withCycles, exec_withCycles]

end

theorem step_of_event_instruction {s : State} (h : s.event = .instruction) : step s = runInstruction s.atBoundary := by
  simp [step, h]

/-- A step that goes on goes on from any count, and adds the same cycles to it. -/
theorem step_withCycles_of_next {s t : State} (h : step s = .next t) (k : Nat) :
    step (s.withCycles k) = .next (t.withCycles (k + (t.cycles - s.cycles))) := by
  rcases step_next_cases h with ⟨he, rfl⟩ | ⟨he, rfl⟩ | ⟨he, rfl⟩ | ⟨he, i, u, hi, hu, rfl⟩
  · rw [step_of_event_reset ((event_withCycles k s).trans he), atBoundary_withCycles, enterReset_withCycles,
      spend_withCycles k s (State.enterReset_cycles s.atBoundary)]
  · rw [step_of_event_nmi ((event_withCycles k s).trans he), atBoundary_withCycles, enterNmi_withCycles,
      spend_withCycles k s (State.enterNmi_cycles s.atBoundary)]
  · rw [step_of_event_irq ((event_withCycles k s).trans he), atBoundary_withCycles, enterIrq_withCycles,
      spend_withCycles k s (State.enterIrq_cycles s.atBoundary)]
  · have hcycles : u.cycles = s.cycles := (exec_next_cases hu).changesOnly.cycles
    rw [step_of_event_instruction ((event_withCycles k s).trans he), atBoundary_withCycles,
      runInstruction_withCycles k _ hi, hu, ← spend_withCycles k s hcycles]
    rfl

/-- A step that is refused is refused at any count, for the same reason. -/
theorem step_withCycles_of_refused {s : State} {r : Refusal} (h : step s = .refused r) (k : Nat) :
    step (s.withCycles k) = .refused r := by
  obtain ⟨he, hfetch | ⟨i, hi, hr⟩⟩ := step_refused_cases h
  · rw [step_of_event_instruction ((event_withCycles k s).trans he), atBoundary_withCycles, runInstruction,
      fetch_withCycles, hfetch]
  · rw [step_of_event_instruction ((event_withCycles k s).trans he), atBoundary_withCycles,
      runInstruction_withCycles k _ hi, hr]
    rfl

/-- Settles O60, by the outcome of the step; there is no fault (log 23). -/
theorem cycleObserverInfluencesNothing : Obligations.CycleObserverInfluencesNothing := by
  intro s k
  cases h : step s with
  | next t => exact step_withCycles_of_next h k
  | fault r => cases r
  | refused r => exact step_withCycles_of_refused h k

end Sys2Proof.Machine
end
